-- ==== Sys2Proof/Word.lean ====
section
/-! DEFINITION. Word.lean: the two bit-vector types of the control window, of every checked header and of
every byte string (R3): 32-bit words and 8-bit bytes. -/

namespace Sys2Proof

/-- A 32-bit word: a register, a header word, a record word (R3). -/
abbrev Word := BitVec 32

/-- A byte of a message body, of the Hive or of host memory. -/
abbrev Byte := BitVec 8

/-- Eight little-endian words: the shape of every 32 B header and record of the engine
(die-port header R22, token header R196, training record R279, layer records R91, R105, R142). -/
structure W8 where
  w0 : Word
  w1 : Word
  w2 : Word
  w3 : Word
  w4 : Word
  w5 : Word
  w6 : Word
  w7 : Word
  deriving DecidableEq, Repr

/-- The four words of a link header (R262). -/
structure W4 where
  l0 : Word
  l1 : Word
  l2 : Word
  l3 : Word
  deriving DecidableEq, Repr

end Sys2Proof
end

