-- ==== Sys2Proof/Syntax.lean ====
section
/-! DEFINITION. Syntax.lean: the commands of the engine, one constructor per row of spec/opcode_table.json,
with the operands that the rule named in the row gives the event: the port, link, die or cluster it happens
on, and the words and bytes that arrive with it. -/

namespace Sys2Proof

/-- What the flash advertises in SFDP (R42, R43): the parsed result of the discovery. -/
structure FlashAd where
  /-- SFDP was found (R423 code 1 otherwise). -/
  sfdp : Bool
  /-- Density in bytes (R42: at least 64 MiB). -/
  density : Nat
  /-- Octal DTR read with DQS is advertised. -/
  octal : Bool
  /-- Quad fast read is advertised. -/
  quad : Bool
  /-- The advertised maximum clocks of octal DTR and of quad reads, in MHz. -/
  octalMhz : Nat
  quadMhz : Nat
  /-- The volatile configuration writes that enter octal DTR, in order, each with its instruction (R42). -/
  config : List (List Byte)
  deriving DecidableEq, Repr

/-- What the DMA path returns for a model load (R392, R399). `none` is an error completion (R38). -/
structure LoadData where
  /-- Descriptor header and segment entries (R391). -/
  desc : Option (List Byte)
  /-- The data of each segment, in entry order. -/
  segs : List (Option (List Byte))
  /-- The save area (R397), read on RESUME. -/
  save : Option (List Byte)
  deriving DecidableEq, Repr

/-- The kinds of DMA read that R38 and R393 tell apart: `model` is the descriptor, `segment` the data of one of its entries. -/
inductive DmaKind where
  | slot | list | model | segment (i : Nat) | save | other
  deriving DecidableEq, Repr

/-- The control-window access of R6: its direction. -/
inductive AccDir where
  | read | write
  deriving DecidableEq, Repr

/-- What a scrub of a Keeper memory finds (R463). -/
inductive ScrubResult where
  /-- every word is sound -/
  | clean
  /-- this many correctable words, corrected -/
  | corrected (n : Nat)
  /-- an uncorrectable word -/
  | uncorrectable
  deriving DecidableEq, Repr

/-- A request of the debug fabric on the debug port (R480): the Hive, the Keepers and the DBG block. -/
inductive DbgReq where
  | hiveRead (addr : Nat)
  | hiveWrite (addr : Nat) (data : List Byte)
  | keeperRead (k : Nat) (addr : Nat)
  | keeperWrite (k : Nat) (addr : Nat) (data : List Byte)
  | regRead (off : Nat)
  | regWrite (off : Nat) (v : Word)
  deriving DecidableEq, Repr

/-- The commands (spec/opcode_table.json), in the table's order. -/
inductive Instr where
  | erpRstNAssert
  | erpRstNRelease
  | erpPwrGoodFall
  | s1Entry (flash : FlashAd)
  | bootKeyRsp (msg : List Word)
  | imageSlotReadDone (data : Option (List Byte))
  | measureAck (msg : List Word)
  | keeperReadyTimeout
  | preparationDone (selftestOk : Bool)
  | hiveZeroisationDone
  | bootFleetWrite (p : Nat) (v : Word)
  | syncInEdge (highNs : Nat)
  | svcDrain
  | drainLedBlink
  | thmAlert
  | fecCorrPulse (n : Nat)
  | regWrite (p : Nat) (off : Nat) (v : Word)
  | regBadAccess (p : Nat) (dir : AccDir) (off : Nat) (size : Nat)
  | pairLoRead (p : Nat) (off : Nat)
  | pairHiRead (p : Nat) (off : Nat)
  | pairLoWrite (p : Nat) (off : Nat) (v : Word)
  | pairHiWrite (p : Nat) (off : Nat) (v : Word)
  | jobEvtClear (p : Nat) (v : Word)
  | rasErrFirstClear (p : Nat) (v : Word)
  | whiskScaleSet (p : Nat) (v : Word)
  | cluFlushStream (p : Nat) (c : Nat) (v : Word)
  | cluFlushAll (p : Nat) (c : Nat) (v : Word)
  | cluEvtRdWrite (p : Nat) (c : Nat) (v : Word)
  | telSnapRequest (p : Nat) (v : Word)
  | telSample
  | keeperTick
  | dbgRead (p : Nat) (v : Word)
  | dbgWrite (p : Nat) (v : Word)
  | dbgAccessDone
  | dbgKeeperHalt (p : Nat) (v : Word)
  | jobStart (p : Nat)
  | jobResume (p : Nat)
  | jobReload (p : Nat)
  | jobAbort (p : Nat)
  | jobCmdIgnored (p : Nat) (v : Word)
  | modelLoadDone (d : LoadData)
  | recipePoll
  | recipeReadDone (slot : Option (List Byte)) (list : Option (List Byte))
  | dmaReadTimeout (k : DmaKind)
  | saveDone
  | stepDeadlineExpiry
  | jobIdleTimeout
  | hsTile (a : Nat) (h : W8) (body : List Byte)
  | expResult (a : Nat) (h : W8) (body : List Byte)
  | swarmIn (a : Nat) (h : W8) (body : List Byte)
  | creditRx (a : Nat) (h : W8) (body : List Byte)
  | creditSend (a : Nat) (cls : Nat)
  | sieveTileLoadStart (a : Nat)
  | sievePageFetchDone (a : Nat) (stall : Nat)
  | sieveRampStart (a : Nat)
  | sieveRampStep (a : Nat)
  | scoringTokenDone (a : Nat) (floorCycles : Nat)
  | capacityPassStart (layer : Nat) (half : Nat)
  | capacityPassEnd (layer : Nat) (half : Nat)
  | whiskPayloadWritten (a : Nat)
  | whiskResultConverted (a : Nat)
  | hiveAllocGrant (q : Nat) (waited : Nat)
  | hiveRefresh (ch : Nat)
  | cluPacketHandover (c : Nat)
  | cluManifestSend (layer : Nat) (half : Nat)
  | dispatchPacketRx (n : Nat)
  | manifestRx (n : Nat)
  | resultPacketRx (n : Nat)
  | cutThroughRelease (n : Nat) (vc : Nat)
  | tileAppend (c : Nat)
  | expTileSend (a : Nat)
  | tileManifestSend (a : Nat)
  | ladleCombineToken (a : Nat) (waited : Nat)
  | ladleAddResult (a : Nat)
  | combResultSend (a : Nat)
  | swarmChunkOpen
  | swarmChunkRx (n : Nat)
  | swarmNoticeRx (n : Nat)
  | swarmOutSend (a : Nat)
  | swarmSignalSend (a : Nat)
  | arriveRx (n : Nat) (cyc : Nat)
  | releaseRx (n : Nat) (cyc : Nat)
  | barrierFire (cyc : Nat)
  | barrierTimeout
  | rosterRevExpiry
  | revStart (n : Nat)
  | rosterComputeDone
  | revVote (n : Nat)
  | revCommit (n : Nat)
  | revAbort (n : Nat)
  | loss (n : Nat)
  | leave (n : Nat)
  | joinReq (n : Nat)
  | joinAck (n : Nat)
  | rosterXfer (n : Nat)
  | lossDetect (pkg : Nat)
  | isolation
  | joinRetry
  | laneChange (n : Nat) (lanes : BitVec 4)
  | linkTrainTimeout (n : Nat)
  | linkIdleHoldEnd (n : Nat)
  | linkHelloTimer (n : Nat)
  | hello (n : Nat) (t : W8)
  | helloAck (n : Nat) (t : W8)
  | echoReq (n : Nat) (t : W8) (cyc : Nat)
  | echoRsp (n : Nat) (t : W8) (cyc : Nat)
  | linkEchoTimer (n : Nat) (cyc : Nat)
  | dataFlitRx (n : Nat) (h : W4) (body : List Byte)
  | ctrlFlitRx (n : Nat) (h : W4)
  | badFlitRx (n : Nat)
  | flitSlotGrant (n : Nat) (cyc : Nat)
  | linkRetryTimeout (n : Nat)
  | linkAliveTimeout (n : Nat)
  | linkKeepalive (n : Nat)
  | linkCreditStall (n : Nat) (vc : Nat)
  | linkDeadTimeout (n : Nat)
  | resync (n : Nat)
  | keySet (msg : List Word)
  | mailboxTimeout
  | e1Entry
  | e2Entry
  | e3Entry
  | wakeTimer
  | wakeComplete
  | earlyWake
  | keeperScrub (k : Nat) (r : ScrubResult)
  | dieportReservedMsg (a : Nat) (h : W8) (body : List Byte)
  | rotLifecycleReport (st : BitVec 2)
  | debugPortRequest (r : DbgReq)
  | mailboxBadMessage (msg : List Word)
  deriving DecidableEq, Repr

end Sys2Proof
end

