-- ==== Sys2Proof/Decode.lean ====
section
/-! DEFINITION. Decode.lean: the command that a word of spec/opcode_table.json spells. -/

namespace Sys2Proof

/-- The table gives none of its rows bits: a command is an event at the engine's boundary, not a word (assumption row 1). -/
def decodeTableWord (_nbits _w : Nat) : Option Instr := none

end Sys2Proof
end

