-- ==== Sys2Proof/Machine/Bits.lean ====
section
/-! DEFINITION. Machine/Bits.lean: bit fields, little-endian byte strings, the CRCs (R168, R198), serial-number
comparison (R456), sparse maps with a computed default, and small list helpers. -/

namespace Sys2Proof.Machine

/-! ### Bit fields (R3) -/

/-- Bits [hi:lo] of a word, as a number. -/
def fld (w : Word) (hi lo : Nat) : Nat := (w.toNat >>> lo) % 2 ^ (hi + 1 - lo)

/-- Bit i of a word. -/
def bit (w : Word) (i : Nat) : Bool := w.getLsbD i

/-- `w` with bits [hi:lo] replaced by `v`. -/
def setFld (w : Word) (hi lo v : Nat) : Word :=
  let mask : Word := BitVec.ofNat 32 ((2 ^ (hi + 1 - lo) - 1) * 2 ^ lo)
  (w &&& ~~~mask) ||| (BitVec.ofNat 32 ((v % 2 ^ (hi + 1 - lo)) * 2 ^ lo))

/-- A number placed at bit `lo` of a word. -/
def at_ (lo v : Nat) : Word := BitVec.ofNat 32 (v * 2 ^ lo)

/-- The value of an n-bit two's complement field. -/
def signed (n v : Nat) : Int := if v < 2 ^ (n - 1) then (v : Int) else (v : Int) - (2 ^ n : Nat)

/-- The n-bit two's complement code of an integer. -/
def unsigned (n : Nat) (i : Int) : Nat := (i % ((2 ^ n : Nat) : Int)).toNat

/-- A truth value as a bit. -/
def b2n (b : Bool) : Nat := if b then 1 else 0

/-- Number of bits set in the low `n` bits. -/
def popcount : Nat → Nat → Nat
  | 0, _ => 0
  | n + 1, v => v % 2 + popcount n (v / 2)

/-! ### Arithmetic helpers -/

def ceilDiv (a b : Nat) : Nat := (a + b - 1) / b

/-- Round up to a multiple of 16 (R136). -/
def pad16 (n : Nat) : Nat := ceilDiv n 16 * 16

/-- v held between lo and hi. Where lo exceeds hi the upper bound wins: R241 gives no value for fewer members than SMIN (DESIGN
CHOICE, assumption row 96). -/
def clampNat (v lo hi : Nat) : Nat := min (max v lo) hi

/-- Serial-number order (R456): `a` is after `b` as counters of `n` bits. -/
def after (n a b : Nat) : Bool :=
  let d := (a + 2 ^ n - b % 2 ^ n) % 2 ^ n
  decide (1 ≤ d ∧ d ≤ 2 ^ (n - 1) - 1)

/-- R456: `a` is before `b`. -/
def before (n a b : Nat) : Bool := after n b a

/-- The next step sequence (32 bits, wrapping). -/
def seqAdd (a k : Nat) : Nat := (a + k) % 2 ^ 32

/-- The next value of a 16-bit count that passes over 0 (R231, R390). -/
def next16 (v : Nat) : Nat := if (v + 1) % 65536 = 0 then 1 else (v + 1) % 65536

/-! ### Bytes, little-endian (R3) -/

/-- The `n` low bytes of a number, byte 0 first. -/
def leBytes : Nat → Nat → List Byte
  | 0, _ => []
  | n + 1, v => BitVec.ofNat 8 v :: leBytes n (v / 256)

/-- The number a little-endian byte string stands for. -/
def leNat : List Byte → Nat
  | [] => 0
  | b :: bs => b.toNat + 256 * leNat bs

/-- The number a big-endian octet string stands for (R414). -/
def beNat (bs : List Byte) : Nat := bs.foldl (fun a b => a * 256 + b.toNat) 0

def wordBytes (w : Word) : List Byte := leBytes 4 w.toNat

def wordsBytes (ws : List Word) : List Byte := ws.flatMap wordBytes

/-- The words of a byte string, a short tail filled with zero. -/
def bytesWords : Nat → List Byte → List Word
  | 0, _ => []
  | n + 1, bs => BitVec.ofNat 32 (leNat (bs.take 4)) :: bytesWords n (bs.drop 4)

/-- Word i of a byte string. -/
def wordAt (bs : List Byte) (i : Nat) : Word := BitVec.ofNat 32 (leNat ((bs.drop (4 * i)).take 4))

/-- Bytes `off` to `off + n - 1`, filled with zero where the string is short. -/
def slice (bs : List Byte) (off n : Nat) : List Byte :=
  let t := (bs.drop off).take n
  t ++ List.replicate (n - t.length) 0

def padTo (n : Nat) (bs : List Byte) : List Byte := bs ++ List.replicate (n - bs.length) 0

/-- Zero bytes up to a multiple of 16 (R136). -/
def padded16 (bs : List Byte) : List Byte := padTo (pad16 bs.length) bs

/-! ### CRC-32C (R198) -/

/-- One bit of the reflected CRC-32C register. -/
def crcBit (c : Word) : Word := if c.getLsbD 0 then (c >>> 1) ^^^ 0x82F63B78#32 else c >>> 1

def crcBits : Nat → Word → Word
  | 0, c => c
  | n + 1, c => crcBits n (crcBit c)

def crcByte (c : Word) (b : Byte) : Word := crcBits 8 (c ^^^ b.setWidth 32)

/-- CRC-32C: Castagnoli, reflected, initial value and final XOR 0xFFFF_FFFF (R198). -/
def crc32c (bs : List Byte) : Word := (bs.foldl crcByte 0xFFFFFFFF#32) ^^^ 0xFFFFFFFF#32

/-- A record of n words whose last word is the CRC-32C over the others. -/
def recOk (n : Nat) (bs : List Byte) : Bool := crc32c (slice bs 0 (4 * (n - 1))) == wordAt bs (n - 1)

/-- The n-1 words of a record, sealed with their CRC-32C. -/
def sealWords (ws : List Word) : List Byte :=
  let b := wordsBytes ws
  b ++ wordBytes (crc32c b)

end Sys2Proof.Machine

namespace Sys2Proof

open Sys2Proof.Machine

/-! ### Checked 32 B records -/

def W8.words (h : W8) : List Word := [h.w0, h.w1, h.w2, h.w3, h.w4, h.w5, h.w6, h.w7]

def W8.bytes (h : W8) : List Byte := wordsBytes h.words

def W8.ofBytes (bs : List Byte) : W8 :=
  ⟨wordAt bs 0, wordAt bs 1, wordAt bs 2, wordAt bs 3, wordAt bs 4, wordAt bs 5, wordAt bs 6, wordAt bs 7⟩

/-- The CRC of a 32 B record over its first seven words. -/
def W8.crc (h : W8) : Word :=
  crc32c (wordsBytes [h.w0, h.w1, h.w2, h.w3, h.w4, h.w5, h.w6])

/-- A 32 B header or record passes its CRC-32C. -/
def W8.ok (h : W8) : Bool := h.crc == h.w7

/-- The record with its check word written. -/
def W8.sealed (h : W8) : W8 := { h with w7 := h.crc }

end Sys2Proof

namespace Sys2Proof.Machine

/-! ### CRC-16 of the free-cell link word (R168) -/

def crc16Bits : Nat → BitVec 16 → BitVec 16
  | 0, c => c
  | n + 1, c => crc16Bits n (if c.getLsbD 15 then (c <<< 1) ^^^ 0x1021#16 else c <<< 1)

def crc16Byte (c : BitVec 16) (b : Byte) : BitVec 16 := crc16Bits 8 (c ^^^ (b.setWidth 16 <<< 8))

def crc16 (bs : List Byte) : BitVec 16 := bs.foldl crc16Byte 0xFFFF#16

/-! ### Sparse maps

A map from numbers is a list of (key, value) pairs, keys strictly rising, no entry equal to the default of
its key: one canonical list for each map. -/

abbrev SMap (α : Type) := List (Nat × α)

/-- The stored value of a key, or the default. -/
def SMap.get {α : Type} (d : Nat → α) (m : SMap α) (k : Nat) : α :=
  match m with
  | [] => d k
  | (j, v) :: r => if j = k then v else SMap.get d r k

/-- The entries that a run of values starting at key `k` contributes: those that differ from the default. -/
def SMap.entries {α : Type} [DecidableEq α] (d : Nat → α) : Nat → List α → SMap α
  | _, [] => []
  | k, v :: vs => if v = d k then SMap.entries d (k + 1) vs else (k, v) :: SMap.entries d (k + 1) vs

/-- Write a run of values from key `k`. -/
def SMap.write {α : Type} [DecidableEq α] (d : Nat → α) (m : SMap α) (k : Nat) (vs : List α) : SMap α :=
  m.filter (fun p => decide (p.1 < k)) ++ SMap.entries d k vs ++
    m.filter (fun p => decide (k + vs.length ≤ p.1))

/-- Write one value. -/
def SMap.set {α : Type} [DecidableEq α] (d : Nat → α) (m : SMap α) (k : Nat) (v : α) : SMap α :=
  SMap.write d m k [v]

/-- Read a run of `n` values from key `k`. -/
def SMap.read {α : Type} (d : Nat → α) : SMap α → Nat → Nat → List α
  | _, _, 0 => []
  | m, k, n + 1 =>
    match m.dropWhile (fun p => decide (p.1 < k)) with
    | [] => d k :: SMap.read d [] (k + 1) n
    | (j, v) :: r =>
      if j = k then v :: SMap.read d r (k + 1) n else d k :: SMap.read d ((j, v) :: r) (k + 1) n

/-- The canonical form: keys strictly rising, no entry equal to its default. -/
def SMap.wf {α : Type} [DecidableEq α] (d : Nat → α) : SMap α → Bool
  | [] => true
  | [(k, v)] => decide (v ≠ d k)
  | (k, v) :: (j, u) :: r => decide (v ≠ d k) && decide (k < j) && SMap.wf d ((j, u) :: r)

/-- The default of a map whose unlisted keys hold nothing. -/
def noneAt {α : Type} (_ : Nat) : Option α := none

/-- The default of a counting map. -/
def zeroAt (_ : Nat) : Nat := 0

/-! ### List helpers -/

/-- Replace element i by its image. -/
def updAt {α : Type} (l : List α) (i : Nat) (f : α → α) : List α := l.modify i f

/-- Insert into an ascending list of numbers without repeats. -/
def insertAsc (x : Nat) : List Nat → List Nat
  | [] => [x]
  | y :: r => if x < y then x :: y :: r else if x = y then y :: r else y :: insertAsc x r

/-- Insertion sort by a strict order, stable. -/
def insertBy {α : Type} (lt : α → α → Bool) (x : α) : List α → List α
  | [] => [x]
  | y :: r => if lt x y then x :: y :: r else y :: insertBy lt x r

def sortBy {α : Type} (lt : α → α → Bool) (l : List α) : List α :=
  l.foldl (fun acc x => insertBy lt x acc) []

def sumNat (l : List Nat) : Nat := l.foldl (· + ·) 0

/-- The positions (from `k`) at which a test holds. -/
def indicesFrom {α : Type} (f : α → Bool) : Nat → List α → List Nat
  | _, [] => []
  | k, x :: r => if f x then k :: indicesFrom f (k + 1) r else indicesFrom f (k + 1) r

/-- Cut a list into pieces of `n`. -/
def chunksOf {α : Type} (n : Nat) : Nat → List α → List (List α)
  | 0, _ => []
  | fuel + 1, l => if l.isEmpty then [] else l.take n :: chunksOf n fuel (l.drop n)

end Sys2Proof.Machine
end

