-- ==== Sys2Proof/Machine/Crypto.lean ====
section
/-! DEFINITION. Machine/Crypto.lean: the algorithms that the spec names and does not define: SHA-384 and ECDSA
P-384 (R415, R416) and AES-256 (R292). PRESUMED: they are those of FIPS 180-4, FIPS 186 and FIPS 197
(assumption row 42). -/

namespace Sys2Proof.Machine

abbrev W64 := BitVec 64

/-! ### SHA-384 -/

/-- The greatest r with r^k ≤ n below 2^bits, bit by bit. -/
def iroot (k n : Nat) : Nat → Nat → Nat
  | 0, r => r
  | b + 1, r => if (r + 2 ^ b) ^ k ≤ n then iroot k n b (r + 2 ^ b) else iroot k n b r

def shaPrimes : List Nat :=
  [2, 3, 5, 7, 11, 13, 17, 19, 23, 29, 31, 37, 41, 43, 47, 53, 59, 61, 67, 71, 73, 79, 83, 89, 97, 101, 103, 107,
   109, 113, 127, 131, 137, 139, 149, 151, 157, 163, 167, 173] ++
  [179, 181, 191, 193, 197, 199, 211, 223, 227, 229, 233, 239, 241, 251, 257, 263, 269, 271, 277, 281, 283, 293,
   307, 311, 313, 317, 331, 337, 347, 349, 353, 359, 367, 373, 379, 383, 389, 397, 401, 409]

/-- Round constants: the first 64 fraction bits of the cube roots of the first 80 primes. -/
def shaK : List W64 := shaPrimes.map (fun p => BitVec.ofNat 64 (iroot 3 (p * 2 ^ 192) 70 0))

/-- Initial value of SHA-384: the first 64 fraction bits of the square roots of the ninth to sixteenth primes. -/
def sha384Iv : List W64 :=
  ((shaPrimes.drop 8).take 8).map (fun p => BitVec.ofNat 64 (iroot 2 (p * 2 ^ 128) 70 0))

def shaS (a b c : Nat) (x : W64) : W64 := x.rotateRight a ^^^ x.rotateRight b ^^^ x.rotateRight c

def shaR (a b c : Nat) (x : W64) : W64 := x.rotateRight a ^^^ x.rotateRight b ^^^ (x >>> c)

/-- The message schedule, newest word first; `n` more words. -/
def shaSchedule : Nat → List W64 → List W64
  | 0, w => w
  | n + 1, w =>
    shaSchedule n ((shaR 19 61 6 (w.getD 1 0) + w.getD 6 0 + shaR 1 8 7 (w.getD 14 0) + w.getD 15 0) :: w)

def shaRound (h : List W64) (kw : W64 × W64) : List W64 :=
  match h with
  | [a, b, c, d, e, f, g, hh] =>
    let t1 := hh + shaS 14 18 41 e + ((e &&& f) ^^^ (~~~e &&& g)) + kw.1 + kw.2
    let t2 := shaS 28 34 39 a + ((a &&& b) ^^^ (a &&& c) ^^^ (b &&& c))
    [t1 + t2, a, b, c, d + t1, e, f, g]
  | h => h

def be64s : Nat → List Byte → List W64
  | 0, _ => []
  | n + 1, bs => BitVec.ofNat 64 (beNat (bs.take 8)) :: be64s n (bs.drop 8)

def shaBlock (h : List W64) (blk : List Byte) : List W64 :=
  let w := (shaSchedule 64 (be64s 16 blk).reverse).reverse
  let r := (shaK.zip w).foldl shaRound h
  (h.zip r).map (fun p => p.1 + p.2)

def beBytes (n v : Nat) : List Byte := (leBytes n v).reverse

/-- SHA-384 of a byte string. -/
def sha384 (m : List Byte) : List Byte :=
  let z := (239 - m.length % 128) % 128
  let p := m ++ [0x80#8] ++ List.replicate z 0#8 ++ beBytes 16 (8 * m.length)
  let h := (chunksOf 128 (p.length / 128 + 1) p).foldl shaBlock sha384Iv
  (h.take 6).flatMap (fun w => beBytes 8 w.toNat)

/-! ### ECDSA P-384 -/

def p384p : Nat := 2 ^ 384 - 2 ^ 128 - 2 ^ 96 + 2 ^ 32 - 1

def p384n : Nat :=
  0xFFFFFFFFFFFFFFFFFFFFFFFFFFFFFFFFFFFFFFFFFFFFFFFFC7634D81F4372DDF581A0DB248B0A77AECEC196ACCC52973

def p384b : Nat :=
  0xB3312FA7E23EE7E4988E056BE3F82D19181D9C6EFE8141120314088F5013875AC656398D8A2ED19D2A85C8EDD3EC2AEF

/-- b^e mod m over the `n` low bits of e, low bit first. -/
def powMod (m : Nat) : Nat → Nat → Nat → Nat → Nat
  | 0, _, _, acc => acc
  | n + 1, b, e, acc => powMod m n (b * b % m) (e / 2) (if e % 2 = 1 then acc * b % m else acc)

/-- The inverse modulo a prime of at most 384 bits. -/
def invMod (m a : Nat) : Nat := powMod m 384 (a % m) (m - 2) 1

def subMod (m a b : Nat) : Nat := (a + m - b % m) % m

/-- A point of P-384 in Jacobian coordinates: it stands for (x / z², y / z³); z = 0 is the point at infinity. -/
structure EcPt where
  x : Nat
  y : Nat
  z : Nat
  deriving DecidableEq, Repr

def p384G : EcPt :=
  ⟨0xAA87CA22BE8B05378EB1C71EF320AD746E1D3B628BA79B9859F741E082542A385502F25DBF55296C3A545E3872760AB7,
   0x3617DE4A96262C6F5D9E98BF9292DC29F8F41DBD289A147CE9DA3113B5F0B8C00A60B1CE1D7E819D7A431D7C90EA0E5F, 1⟩

def ecInf : EcPt := ⟨1, 1, 0⟩

/-- Doubling, with the curve's a = -3. -/
def ecDouble (q : EcPt) : EcPt :=
  let p := p384p
  let yy := q.y * q.y % p
  let zz := q.z * q.z % p
  let s := 4 * q.x * yy % p
  let m := 3 * subMod p q.x zz * (q.x + zz) % p
  let x := subMod p (m * m) (2 * s)
  ⟨x, subMod p (m * subMod p s x) (8 * yy * yy), 2 * q.y * q.z % p⟩

def ecAdd (a b : EcPt) : EcPt :=
  let p := p384p
  if a.z = 0 then b
  else if b.z = 0 then a
  else
    let za := a.z * a.z % p
    let zb := b.z * b.z % p
    let u := a.x * zb % p
    let v := a.y * (zb * b.z % p) % p
    let h := subMod p (b.x * za % p) u
    let r := subMod p (b.y * (za * a.z % p) % p) v
    if h = 0 then (if r = 0 then ecDouble a else ecInf)
    else
      let hh := h * h % p
      let w := u * hh % p
      let x := subMod p (r * r) (h * hh + 2 * w)
      ⟨x, subMod p (r * subMod p w x) (v * (h * hh % p)), h * a.z * b.z % p⟩

/-- k × Q over the `n` low bits of k. -/
def ecMul : Nat → Nat → EcPt → EcPt → EcPt
  | 0, _, _, acc => acc
  | n + 1, k, q, acc => ecMul n (k / 2) (ecDouble q) (if k % 2 = 1 then ecAdd acc q else acc)

def ecOnCurve (x y : Nat) : Bool :=
  decide (x < p384p) && decide (y < p384p) &&
    decide (y * y % p384p = (x * x * x + (p384p - 3) * x + p384b) % p384p)

/-- ECDSA P-384 verification of (r, s) over a SHA-384 digest (R415). -/
def ecdsaVerify (qx qy : Nat) (digest : List Byte) (r s : Nat) : Bool :=
  if ¬(1 ≤ r ∧ r < p384n ∧ 1 ≤ s ∧ s < p384n) ∨ ecOnCurve qx qy = false then false
  else
    let w := invMod p384n s
    let u1 := beNat digest * w % p384n
    let u2 := r * w % p384n
    let t := ecAdd (ecMul 384 u1 p384G ecInf) (ecMul 384 u2 ⟨qx, qy, 1⟩ ecInf)
    if t.z = 0 then false
    else
      let zi := invMod p384p t.z
      decide (t.x * (zi * zi % p384p) % p384p % p384n = r)

/-! ### AES-256 -/

def gfDouble (a : Byte) : Byte := if a.getLsbD 7 then (a <<< 1) ^^^ 0x1B#8 else a <<< 1

/-- The product in GF(2^8), over the `n` low bits of b. -/
def gfMul : Nat → Byte → Byte → Byte
  | 0, _, _ => 0
  | n + 1, a, b => (if b.getLsbD 0 then a else 0) ^^^ gfMul n (gfDouble a) (b >>> 1)

/-- a^254: the inverse, 0 for 0. -/
def gfInv (a : Byte) : Byte :=
  let sq (x : Byte) : Byte := gfMul 8 x x
  let a2 := sq a; let a4 := sq a2; let a8 := sq a4; let a16 := sq a8; let a32 := sq a16
  let a64 := sq a32; let a128 := sq a64
  [a4, a8, a16, a32, a64, a128].foldl (fun x y => gfMul 8 x y) a2

def aesSub (a : Byte) : Byte :=
  let i := gfInv a
  i ^^^ i.rotateLeft 1 ^^^ i.rotateLeft 2 ^^^ i.rotateLeft 3 ^^^ i.rotateLeft 4 ^^^ 0x63#8

def aesSbox : List Byte := (List.range 256).map (fun i => aesSub (BitVec.ofNat 8 i))

def sboxAt (b : Byte) : Byte := aesSbox.getD b.toNat 0

def xorBytes (a b : List Byte) : List Byte := (a.zip b).map (fun p => p.1 ^^^ p.2)

/-- Key-schedule words, newest first: word index i, round constant, `n` words more. -/
def aesExpand : Nat → Nat → Byte → List (List Byte) → List (List Byte)
  | 0, _, _, w => w
  | n + 1, i, rc, w =>
    let t := w.getD 0 []
    let old := w.getD 7 []
    if i % 8 = 0 then
      let r := ((t.drop 1) ++ t.take 1).map sboxAt
      let x := match r with | a :: rest => (a ^^^ rc) :: rest | [] => []
      aesExpand n (i + 1) (gfDouble rc) (xorBytes old x :: w)
    else if i % 8 = 4 then aesExpand n (i + 1) rc (xorBytes old (t.map sboxAt) :: w)
    else aesExpand n (i + 1) rc (xorBytes old t :: w)

/-- The 15 round keys of a 32-byte key. -/
def aesKeys (key : List Byte) : List (List Byte) :=
  let w := (aesExpand 52 8 1 (chunksOf 4 8 key).reverse).reverse
  (chunksOf 4 15 w).map List.flatten

def aesShiftRows (s : List Byte) : List Byte :=
  (List.range 16).map (fun i => s.getD ((i + 4 * (i % 4)) % 16) 0)

def aesMixCol (c : List Byte) : List Byte :=
  (List.range 4).map (fun i =>
    gfMul 8 (c.getD i 0) 2 ^^^ gfMul 8 (c.getD ((i + 1) % 4) 0) 3 ^^^ c.getD ((i + 2) % 4) 0 ^^^ c.getD ((i + 3) % 4) 0)

def aesRounds (s : List Byte) : List (List Byte) → List Byte
  | [] => s
  | [k] => xorBytes (aesShiftRows (s.map sboxAt)) k
  | k :: ks => aesRounds (xorBytes ((chunksOf 4 4 (aesShiftRows (s.map sboxAt))).flatMap aesMixCol) k) ks

/-- AES-256 of one 16-byte block. -/
def aes256 (key blk : List Byte) : List Byte :=
  match aesKeys key with
  | k :: ks => aesRounds (xorBytes blk k) ks
  | [] => blk

end Sys2Proof.Machine
end

