-- ==== Sys2Proof/Config.lean ====
section
/-! DEFINITION. Config.lean: the values that the spec leaves open. Each is an opaque constant: nothing in Lean can
evaluate it, so a statement about the model holds for every value of it. -/

namespace Sys2Proof.Config

/-- Which of the free tile records an append takes (R220: the record layout and choice are internal). The step
counter of the model selects a fresh value for each choice (assumption row 21). -/
opaque tileChoice : Nat → Nat

/-- The order in which the capacity pass breaks a tie between two copies of one expert with the same stream and
position (R123's note: no defined order, and it may differ between runs; assumption row 22). -/
opaque tieOrder : Nat → Bool

/-- What a debug-port read of a Keeper memory or of a damaged word delivers where no rule states it: an
uncorrectable word of the Hive's metadata region (R160 and R495 give ERR, not the data; assumption row 23). -/
opaque badWord : Nat → BitVec 64

/-- A member that is no direct peer is an Erpinel-24: R334 needs the grade of every member, and no rule says how a package
learns one but HELLO (R280) for its peers (assumption row 60). -/
opaque memberE24 : Nat → Bool

/-- What a debug access reads of a tile record in use: the record's layout is internal (R220; assumption row 100). -/
opaque tileWord : Nat → BitVec 64

end Sys2Proof.Config
end

