-- ==== Sys2Proof/Machine/Parts.lean ====
section
/-! DEFINITION. Machine/Parts.lean: the units of the engine as plain data: one structure for each piece of state
that the chapters name, outside the register file. -/

namespace Sys2Proof.Machine

/-! ### Outputs -/

/-- What leaves the engine at its boundary (R20), newest first in `State.outs`: the model's own trace. -/
inductive Out where
  /-- a message on die port a (R22) -/
  | dieMsg (a : Nat) (h : W8) (body : List Byte)
  /-- a flit on link n (R262) -/
  | flit (n : Nat) (h : W4) (body : List Byte)
  /-- an interrupt (host port, event bit) (R39) -/
  | irq (port bit : Nat)
  /-- a DMA write of the port that owns the job (R37) -/
  | dmaWrite (port addr : Nat) (data : List Byte)
  /-- a DMA read request (R37) -/
  | dmaRead (port addr len : Nat)
  /-- a mailbox message to the root of trust (R477) -/
  | mbox (m : List Word)
  /-- a VDD_ERP_LOGIC setpoint request in mV (R50) -/
  | setpoint (mv : Nat)
  /-- a high pulse on erp_sync_out (R362) -/
  | syncPulse
  /-- a read of the boot flash (R413) -/
  | flashRead (addr len : Nat)
  /-- a pulse of xspi_rst_n (R43) -/
  | flashReset
  /-- the read of the flash's SFDP in 1S-1S-1S mode: the instruction, and the clock in MHz (R43) -/
  | flashSfdp (instr mhz : Nat)
  /-- a volatile configuration write that SFDP describes for octal DTR (R42) -/
  | flashConfig (bytes : List Byte)
  /-- a tick to the Keeper firmware (R451) -/
  | keeperTick
  /-- an answer on the debug port -/
  | debug (data : List Byte)
  deriving DecidableEq, Repr

/-! ### Part, clocks and pins -/

/-- What is fused at test (R1, R89, R90, R458, R492). -/
structure Fuses where
  /-- Erpinel-24 -/
  e24 : Bool
  step : Nat
  serial : Nat
  /-- repaired logical rows of each Sieve, ascending -/
  spare : List (List Nat)
  e0Mv : Nat
  deriving DecidableEq, Repr

/-- Reset, timebase, clocks and pins. -/
structure Chip where
  /-- erp_rst_n is asserted -/
  inReset : Bool
  /-- TMR_NOW (R450) -/
  now : Nat
  /-- the fast clocks run (R36, R409, R412) -/
  fastOn : Bool
  /-- a start has failed since the release (R412) -/
  failed : Bool
  /-- TMR_NOW of the last accepted edge of erp_sync_in (R46) -/
  syncLast : Option Nat
  ledOk : Bool
  ledRemove : Bool
  /-- TMR_NOW of the last change of led_ok while it blinks (R45) -/
  blinkAt : Nat
  /-- the root of trust has reported the lifecycle state since the release (R476) -/
  lifeReported : Bool
  /-- the flash port is driven (R44) -/
  flashDriven : Bool
  /-- svc_drain_n was asserted before S2 (R45) -/
  drainLatched : Bool
  /-- nanoseconds toward the next whole microsecond of TEL_E0_US, CLK_E1_US and CLK_E2_US -/
  accE0 : Nat
  accE1 : Nat
  accE2 : Nat
  deriving DecidableEq, Repr

/-- A timer of the bank (R453). -/
structure Timer where
  armed : Bool
  t0 : Nat
  /-- duration in the timer's UNIT -/
  d : Nat
  deriving DecidableEq, Repr

/-- An outstanding request to the root of trust (R477). -/
structure MboxReq where
  op : Nat
  tag : Nat
  sent : Nat
  words : List Word
  deriving DecidableEq, Repr

/-! ### Start -/

/-- The staged start (R409 to R424). -/
structure Boot where
  /-- clock of the selected flash read mode, in MHz (R43) -/
  clk : Nat
  /-- slot being read: 0 A, 1 B -/
  slot : Nat
  reading : Bool
  /-- bytes of the slot held until the key hash arrives -/
  held : Option (List Byte)
  keyHash : Option (List Byte)
  minSvn : Nat
  /-- the accepted image whose records await MEASURE_ACK -/
  accepted : Option (List Byte)
  /-- when the Keepers were started (R411) -/
  prepAt : Option Nat
  deriving DecidableEq, Repr

/-- The nine Keepers: 0 to 7 region Keepers, 8 the Head Keeper. -/
structure Keepers where
  mem : List (SMap Byte)
  started : Bool
  /-- time of the last scrub (R463) -/
  scrubbed : Nat
  deriving DecidableEq, Repr

/-! ### The Hive -/

/-- A payload handle (R167). -/
structure Handle where
  pool : Nat
  cell : Nat
  gen : Nat
  deriving DecidableEq, Repr

/-- The layout that the last zeroisation pass or image load laid the Hive out by (R161, R162). -/
structure Layout where
  metaSz : Nat
  gateSz : Nat
  slots : Nat
  pools : List Nat
  deriving DecidableEq, Repr

/-- Who waits for Hive space (R183). -/
inductive AllocSrc where
  | hsPort (a : Nat)
  | resPort (a : Nat)
  | whisk (a : Nat)
  | rx (n : Nat) (vc : Nat)
  | swmPort (a : Nat)
  /-- a cluster's tile append -/
  | clu (c : Nat)
  /-- a cluster's packet on its way to a Forager -/
  | hand (c : Nat)
  deriving DecidableEq, Repr

/-- A waiting request: the pool it fits (5 for header slots), its side and its source. -/
structure AllocReq where
  pool : Nat
  own : Bool
  src : AllocSrc
  deriving DecidableEq, Repr

structure Hive where
  /-- bytes that differ from the zeroised image of `layout` -/
  mem : List (Nat × Byte)
  layout : Layout
  /-- sublist heads that differ from those of a zeroised pool, keyed by pool × 1,024 + sublist (R169) -/
  heads : SMap Nat
  rr : List Nat
  slotHead : Nat
  waiting : List AllocReq
  /-- own-side cells of each pool taken in the step (R183) -/
  ownTaken : List Nat
  ownSlots : Nat
  /-- most cells in use in the running step -/
  peak : List Nat
  /-- words of the metadata region with a damaged code: address and whether uncorrectable (R160) -/
  upsets : List (Nat × Bool)
  /-- trigger of the running zeroisation pass -/
  zeroReason : Nat
  deriving DecidableEq, Repr

/-- The requesters of a channel's arbiter (R187). -/
inductive HiveGroup where
  | alloc | dieRx | cluRx | ladle | whisk | dieTx | cluTx | sieve | swarm | keeper
  deriving DecidableEq, Repr

/-- A burst: its requester, the address of its first access, its accesses of 32 B, and the cycles it has waited (R187). -/
structure Burst where
  grp : HiveGroup
  /-- the region, cluster or other instance of the requester -/
  member : Nat
  addr : Nat
  len : Nat
  write : Bool
  waited : Nat
  deriving DecidableEq, Repr

/-- A channel of the Hive (R187 to R189). -/
structure Chan where
  /-- bursts that wait, oldest first -/
  queue : List Burst
  /-- the granted burst and its progress count -/
  held : Option (Burst × Nat)
  /-- the requester of each group that was granted last -/
  last : SMap Nat
  /-- cycles for which an emergency requester still holds the channel -/
  emer : Nat
  deriving DecidableEq, Repr

/-- The channels and requester ports of the Hive (R186 to R190). -/
structure Bus where
  chans : SMap Chan
  /-- bursts that wait for credit, by port and layer -/
  backlog : SMap (List Burst)
  /-- credits in use, by port and layer (R186) -/
  used : SMap Nat
  /-- refreshes of each channel, counted in phases of TMR_NOW (R189) -/
  refreshed : SMap Nat
  /-- TMR_NOW of the last exit from self-refresh, which refreshes every channel once (R445) -/
  exitAt : Option Nat
  /-- the started access of DBG: its address, and the bytes of a write (R495) -/
  dbgGo : Option (Nat × Option (List Byte))
  /-- debug-port accesses that wait for the Hive to serve again (R190) -/
  dbgWait : List DbgReq
  deriving DecidableEq, Repr

/-! ### Jobs and steps -/

/-- What the load leaves of a model beside the Hive (R180, R391). -/
structure Model where
  layers : Nat
  ub : List Nat
  uc : Nat
  us : Nat
  deriving DecidableEq, Repr

/-- What follows the zeroisation pass of a job's end (R396). -/
inductive AfterZero where
  | nothing
  | toFaulted
  | endJob
  deriving DecidableEq, Repr

structure Job where
  ring : Nat
  ask : Nat
  log2 : Nat
  modelAt : Nat
  saveAt : Nat
  /-- 0 none, 1 START, 2 RESUME, 3 RELOAD -/
  loadKind : Nat
  model : Option Model
  /-- start times of the reads of the awaited slot that are outstanding, oldest first (R377, R38) -/
  reads : List Nat
  /-- a valid Recipe and its change list, which wait for the Hive to leave self-refresh (R190) -/
  held : Option (List Byte × List Byte)
  /-- start of the load's reads (R38) -/
  loadAt : Nat
  /-- END_SEQ of a fleet job that is ending (R395) -/
  endSeq : Option Nat
  /-- the ending asks for a save (YIELD) -/
  yield : Bool
  endReason : Nat
  after : AfterZero
  /-- roster epoch of the save area that was restored, and the log of its QUOTA (R399, R429) -/
  savedEpoch : Nat
  savedLqf : Option Nat
  /-- a Recipe has been accepted since the load Ask (R429) -/
  anyAccepted : Bool
  /-- fault policy taken at the step boundary (R465): MODE, TD_MAX -/
  policy : Nat × Nat
  deriving DecidableEq, Repr

/-- A slot of a combine record (R305): a placed routed copy or a shared copy. -/
inductive LeafState where
  | open_
  /-- delivered, its payload handle, header slot and length -/
  | used (h : Handle) (slot : Nat)
  /-- delivered and already added in open mode -/
  | added
  | poisoned
  | lost
  | dropped
  deriving DecidableEq, Repr

structure Leaf where
  /-- leaf index: the rank, or k + the shared expert's number -/
  leaf : Nat
  expert : Nat
  rank : Nat
  /-- FP32 gate weight -/
  g : Nat
  /-- where the copy goes: first the package itself, then what the capacity pass gives -/
  dest : Nat
  st : LeafState
  deriving DecidableEq, Repr

/-- A token of a (layer, half) in its arrival position on its die port. -/
structure Tok where
  stream : Nat
  pos : Nat
  /-- 0: a live token; 1: a row of a poisoned tile; 2: a row of a removed torn stream (R507) -/
  passed : Nat
  hs : Option Handle
  /-- FMT of the hidden-state row -/
  hsFmt : Nat
  scored : Bool
  whisked : Bool
  disp : Option Handle
  leaves : List Leaf
  /-- unbiased scores of the selected experts, by rank (R115, R122) -/
  scores : List Nat
  /-- the combine record exists (R305) -/
  recd : Bool
  poison : Bool
  /-- arrival order of available leaves in open mode (R314) -/
  avail : List Nat
  /-- running FP32 sums in open mode -/
  sums : Option (List Nat)
  /-- the finished combined row -/
  row : Option (List Byte)
  sent : Bool
  deriving DecidableEq, Repr

/-- The tokens of a (layer, half) on one die port. -/
structure PortHalf where
  toks : List Tok
  /-- the LAST_OF_HALF tile has arrived -/
  last : Bool
  /-- rows sent back and messages sent (R321) -/
  sent : Nat
  msgs : Nat
  combDone : Bool
  deriving DecidableEq, Repr

/-- A packet of the send side, sorted (R200, R201). -/
structure OutPkt where
  dest : Nat
  /-- region and arrival index of its token -/
  a : Nat
  tok : Nat
  stream : Nat
  pos : Nat
  /-- leaf indices of its copies, in ascending expert id -/
  leaves : List Nat
  ordinal : Nat
  disp : Option Handle
  deriving DecidableEq, Repr

/-- The receive state of a (layer, half) from one member (R205). -/
structure RxMember where
  pkg : Nat
  count : Nat
  /-- HEADERS and the (expert, copies) entries of its manifest -/
  man : Option (Nat × List (Nat × Nat))
  /-- headers received per expert -/
  by_ : SMap Nat
  deriving DecidableEq, Repr

structure HalfRec where
  ports : List PortHalf
  /-- 0 not started, 1 running, 2 ended -/
  cap : Nat
  epoch : Nat
  /-- members at the epoch, ascending; [own] in island mode -/
  members : List Nat
  /-- capacity-pass snapshot: T_h -/
  th : Nat
  /-- packets not yet handed over, per cluster -/
  queues : List (List OutPkt)
  /-- packets handed over, per cluster -/
  handed : List Nat
  /-- manifests not yet sent, per cluster, ascending destination -/
  mans : List (List Nat)
  /-- (destination, expert, stub) of every header handed over -/
  sentHdrs : List (Nat × Nat)
  sentPkts : List Nat
  rx : List RxMember
  rxDone : Bool
  /-- tiles opened, local rows appended and the tail (VARIANT × 2^11 + R) of each key (R221, R224), keyed
  4 × expert + die -/
  tilesOf : SMap Nat
  locRows : SMap Nat
  tails : SMap Nat
  tailsDone : Bool
  /-- the manifests of R204 have become ready -/
  mansReady : Bool
  /-- EXP_TILEs sent to each die -/
  tilesSent : List Nat
  /-- TILE_MANIFEST queued or sent, per die -/
  manSent : List Bool
  /-- tokens of each stream in this (layer, half) (R381) -/
  perStream : SMap Nat
  deriving DecidableEq, Repr

structure LayerRec where
  layer : Nat
  /-- in flight under R17: a hidden-state tile has arrived and the layer is not done -/
  flying : Bool
  halves : List HalfRec
  sat : Nat
  unf : Nat
  digest : Nat
  deriving DecidableEq, Repr

/-- What the Ask of a step counts (R382). -/
structure AskCnt where
  tokens : Nat
  copies : Nat
  remote : Nat
  spills : Nat
  drops : Nat
  lost : Nat
  poisoned : Nat
  /-- a row of a poisoned HS_TILE came (R507) -/
  poisonRow : Bool
  thm : Nat
  nans : Nat
  sat : Nat
  overb : Nat
  joins : Nat
  leaves : Nat
  streams : Nat
  /-- packages departed or named lost (A14) -/
  losses : List Nat
  lossFlag : Bool
  stagedFlag : Bool
  deadline : Bool
  deriving DecidableEq, Repr

structure StepSt where
  /-- a step is accepted and its Ask is not yet written -/
  inProg : Bool
  /-- the last layer is done and the barrier is open (R19) -/
  ended : Bool
  ordered : Bool
  fleet : Bool
  /-- shape buckets (ROWS, VARIANT) -/
  buckets : List (Nat × Nat)
  tag0 : Word
  tag1 : Word
  acceptedAt : Nat
  endedAt : Nat
  layers : List LayerRec
  /-- layers in the order in which they came in flight, from the oldest in flight on (R17) -/
  flights : List Nat
  done : List Nat
  digests : SMap Nat
  deferred : List Nat
  /-- COMB_RESULTs that wait on each die port, in the order in which they became ready: layer, half and rows (R213, R321) -/
  combQ : List (List (Nat × Nat × Nat))
  /-- streams torn since the last acceptance and not yet removed (R471), first torn first -/
  torn : List Nat
  /-- streams torn between the Ask before and the acceptance: the next Ask reports them (R402, assumption row 117) -/
  tornEarly : List Nat
  /-- streams removed as torn at this step's acceptance (R472) -/
  tornRemoved : List Nat
  /-- tokens of each stream in layer 0 -/
  tokOf : SMap Nat
  cnt : AskCnt
  deriving DecidableEq, Repr

/-! ### Die ports -/

/-- A message in the staging buffer of a class. -/
structure Staged where
  h : W8
  body : List Byte
  /-- its header has passed its checks -/
  checked : Bool
  /-- rows already written to the Hive -/
  rows : Nat
  /-- credits already owed back for it -/
  owed : Nat
  deriving DecidableEq, Repr

structure DiePort where
  hs : List Staged
  res : List Staged
  swm : List Staged
  /-- credits to return, classes HS, RES, SWM -/
  owed : List Nat
  /-- the classes in which credits are owed, in the order in which their CREDITs became ready (R213) -/
  turn : List Nat
  /-- credits held against the compute die, classes TILE, COMB, SWM -/
  held : List Nat
  /-- closed tiles (record indices) ready to leave, in order -/
  tiles : List Nat
  /-- (layer, half) whose TILE_MANIFEST is ready -/
  mans : List (Nat × Nat)
  /-- for each priority 2 to 5, how often each waiting message was passed over, in their order (R213) -/
  passed : List (List Nat)
  deriving DecidableEq, Repr

/-! ### Regions -/

/-- A gate page in the tile store (R93, R94). `pass` numbers the fetches of a whole layer: one for a resident layer, one
for each token block of a streamed layer. -/
structure SievePage where
  layer : Nat
  pass : Nat
  col : Nat
  row : Nat
  bytes : List Byte
  deriving DecidableEq, Repr

/-- What the active or the shadow weight registers hold (R69, R71): a tile of a block, the weight codes by array row and
logical column, and the block shifts by block of 32 elements and column. A masked cell is missing from its row and holds
zero (R84). -/
structure SieveTile where
  /-- gate format of the weights -/
  fmt : Nat
  /-- place of the tile in its block, in the order of R80 -/
  index : Nat
  cells : List (List Nat)
  shifts : List (List Nat)
  deriving DecidableEq, Repr

/-- Gate logits delivered to the scoring unit: (layer, half), the token's arrival index, and its columns so far (R80). -/
structure Logits where
  layer : Nat
  half : Nat
  tok : Nat
  zs : List Nat
  deriving DecidableEq, Repr

/-- A page that the pager wants: of a layer and a pass, by page column and row, and the pages that follow it in the order of R80
where the layer is streamed. -/
structure PageReq where
  layer : Nat
  pass : Nat
  page : Nat × Nat
  later : List (Nat × Nat)
  deriving DecidableEq, Repr

structure SieveSt where
  /-- the (layer, half) started, in the order of R16 -/
  cur : Option (Nat × Nat)
  /-- the shape chosen for it (R82) -/
  shape : Nat
  /-- tokens of the (layer, half) in blocks that have streamed -/
  base : Nat
  /-- tiles of the current block that have switched in -/
  tile : Nat
  /-- tokens of the current block that have streamed through the tile in the active registers -/
  fed : Nat
  active : Option SieveTile
  shadow : Option SieveTile
  /-- accumulator entries that are not zero, keyed by the token's place in its block × logical columns + column (R70) -/
  acc : SMap Nat
  /-- logits delivered and not yet selected from, in block order -/
  ready : List Logits
  /-- 0 work or clock-gated, 1 gap with dummy pattern, 2 ramping -/
  ramp : Nat
  rampStep : Nat
  /-- rows, lowest first, that the ramp has not stopped: with the floor on, their staggering registers carry the dummy pattern
  in a gap; every other one holds zero (R85 to R88) -/
  dummyRows : Nat
  /-- the tile store: pages, first fetched first -/
  store : List SievePage
  /-- column-sum records paged with their layers, by pass (R98) -/
  csums : SMap (List Byte)
  /-- the pass that the array is at -/
  pass : Nat
  nextLayer : Option Nat
  streamed : Bool
  /-- layers whose record failed its check when read (R92) -/
  bad : List Nat
  /-- T_p of each (layer, half), keyed 2 × layer + half (R82) -/
  tp : SMap Nat
  deriving DecidableEq, Repr

/-! ### Clusters and tiles -/

/-- A copy that waits to be appended to the tile of its key (R220). -/
structure Append where
  layer : Nat
  half : Nat
  expert : Nat
  die : Nat
  /-- header, already in a slot of the Hive for a peer row -/
  hdr : W8
  slot : Option Nat
  h : Handle
  poison : Bool
  loc : Bool
  link : Nat
  deriving DecidableEq, Repr

structure Cluster where
  appendQ : List Append
  teardown : List Nat
  /-- SEQ of the next event (R226) -/
  evSeq : Nat
  /-- packets of the next step: link, VC and arrival position (R211) -/
  holding : Nat
  deriving DecidableEq, Repr

structure TileRow where
  slot : Nat
  poison : Bool
  /-- its result has been returned (R310) -/
  back : Bool
  deriving DecidableEq, Repr

structure Tile where
  idx : Nat
  gen : Nat
  layer : Nat
  half : Nat
  expert : Nat
  die : Nat
  rows : List TileRow
  closed : Bool
  /-- padded row count R and VARIANT of a closed tile (R221) -/
  r : Nat
  variant : Nat
  ordinal : Nat
  sent : Bool
  deriving DecidableEq, Repr

structure TileTbl where
  live : List Tile
  /-- generations of records that differ from 0 (R225) -/
  gens : SMap Nat
  deriving DecidableEq, Repr

/-! ### Links -/

/-- A packet in the transmit queue of a VC of a Forager. -/
structure TxPkt where
  vc : Nat
  dst : Nat
  hops : Nat
  mg : Bool
  nhdr : Nat
  /-- bytes known so far (headers first); a relayed packet grows flit by flit -/
  bytes : List Byte
  /-- payload read from the Hive when flits are cut: handle and length -/
  pay : Option (Handle × Nat)
  /-- all bytes are known -/
  whole : Bool
  /-- relayed: arrival link -/
  relay : Option Nat
  /-- abandoned: PAB on EOP (R290, R300) -/
  pab : Bool
  /-- flits sent -/
  sent : Nat
  /-- header slots freed with the copy (R178) -/
  slots : List Nat
  /-- SEQ of each flit sent -/
  seqs : List Nat
  /-- relayed: places of the arrival link that its unsent flits hold (R269) -/
  held : Nat
  /-- sent again after a link died: the link that it left (R284) -/
  avoid : Option Nat
  /-- a RELEASE: the fire cycle from which REM is taken at the grant (R359) -/
  fire : Option Nat
  deriving DecidableEq, Repr

/-- A flit in the retry buffer (R271). -/
structure RetryFlit where
  seq : Nat
  h : W4
  /-- the body as sent, encrypted where ENC is 1 -/
  body : List Byte
  /-- it carries a RELEASE (R361) -/
  rel : Bool
  deriving DecidableEq, Repr

/-- A packet being received or waiting to be taken, per link and VC. -/
structure RxPkt where
  dst : Nat
  hops : Nat
  mg : Bool
  nhdr : Nat
  bytes : List Byte
  whole : Bool
  /-- abandoned (R215, R283) -/
  pab : Bool
  /-- CLU_CUT at its first flit (R229) -/
  cut : Nat
  /-- taken by its cluster: payload handle and header slots -/
  taken : Option (Option Handle × List Nat)
  /-- its copies have been released to their consumers -/
  released : Bool
  /-- its headers are in the counts of R205 -/
  counted : Bool
  /-- flit places not yet freed -/
  places : Nat
  /-- the relay's outbound link (R288); 64 when the packet is being discarded -/
  relay : Option Nat
  deriving DecidableEq, Repr

structure Key where
  job : Nat
  epoch : Nat
  kg : Nat
  bytes : List Byte
  deriving DecidableEq, Repr

structure LinkTrain where
  /-- where a link in RECOVER stands: 1 LANES, 2 HELLO (R282) -/
  sub : Nat
  lanesAt : Nat
  /-- start of a 1 ms idle hold (R278) -/
  hold : Option Nat
  idleReq : Bool
  lpReq : Bool
  /-- the link keeps its sequence state (R282) -/
  resume : Bool
  ackSent : Bool
  ackGot : Bool
  peerResume : Bool
  /-- the peer's T5 and T1, T2, T3 as last received -/
  peerX : Nat
  peerPlaces : Word
  peerXbase : Nat
  helloAt : Nat
  echoAt : Nat
  echoSent : Nat
  /-- last 16 round trips, newest first -/
  echoes : List Nat
  recoverAt : Nat
  deriving DecidableEq, Repr

structure LinkTx where
  seq : Nat
  retry : List RetryFlit
  /-- how many of the newest flits of the retry buffer are still to be resent -/
  resend : Nat
  episodes : Nat
  oldestAt : Nat
  credits : List Nat
  lastCr : List Nat
  q : List (List TxPkt)
  /-- packets wholly or partly sent and not wholly acknowledged -/
  flight : List TxPkt
  wait : List Nat
  last23 : Nat
  lastRelay : List Bool
  stallAt : List (Option Nat)
  /-- descriptors that await the peer's RESYNC (R283) -/
  retained : List TxPkt
  /-- a CTRL flit is called for (R275, R281) -/
  ctrlDue : Bool
  nakDue : Bool
  /-- the CTRL flit of the microsecond is due (R275) -/
  aliveDue : Bool
  /-- when the last CTRL flit left -/
  lastCtrl : Nat
  quiet : Bool
  trainQ : List W8
  deriving DecidableEq, Repr

structure LinkRx where
  x : Nat
  /-- places freed, cumulative modulo 256 (R268) -/
  freed : List Nat
  q : List (List RxPkt)
  nakAt : Option Nat
  lastRx : Nat
  deriving DecidableEq, Repr

structure LinkKeys where
  /-- the peer for which keys were installed last (R478) -/
  peer : Option Nat
  tx : Option Key
  txNext : Option Key
  rx : List Key
  /-- the peer's last advertisement -/
  peerKv : Bool
  peerKg : Nat
  /-- XSEQ of the next new DATA flit (R294) -/
  xseq : Nat
  /-- XSEQ of the next flit to arrive, and the generation it is counted in; none after a training, whose XBASE holds for the
  generation of the first flit -/
  rxXseq : Nat
  rxKg : Option Nat
  /-- the newest receive key has been advertised in a CTRL flit (R295) -/
  adv : Bool
  deriving DecidableEq, Repr

structure Link where
  train : LinkTrain
  tx : LinkTx
  rx : LinkRx
  keys : LinkKeys
  deriving DecidableEq, Repr

/-! ### Power -/

structure Power where
  /-- the layer whose gap is running, and the start of the gap (R446) -/
  gap : Option (Nat × Nat)
  /-- what R447 chose for the gap: 0 E0, 1 E1, 2 E2 -/
  plan : Nat
  /-- TMR_NOW at which WAKE is to expire -/
  wakeAt : Option Nat
  /-- last four gaps of each layer in units of 10 ns, newest first -/
  hist : SMap (List Nat)
  /-- steps for which each layer is still barred from E2 (R448) -/
  bars : SMap Nat
  /-- since when the conditions of R440 have held -/
  idleAt : Option Nat
  /-- since when STATE has been IDLE (R442) -/
  jobIdleAt : Option Nat
  /-- a wake is in progress: state it started from, start, source -/
  wakeFrom : Nat
  wakeT0 : Nat
  /-- the wake source that waits for a halted Head Keeper to ask for the setpoint (R50, R496) -/
  wakeHeld : Option Nat
  /-- completion of a timed wake that awaits its tile (R449) -/
  timed : Option Nat
  /-- the sleep that R447 chose for the gap has ended in E0 (R448) -/
  woke : Bool
  deriving DecidableEq, Repr

/-! ### Telemetry and debug -/

structure Tel where
  /-- live counters in the order of *TEL registers*, 64-bit ones whole -/
  steps : Nat
  layers : Nat
  tokens : Nat
  flitTx : Nat
  flitRx : Nat
  dieRx : Nat
  dieTx : Nat
  hiveRd : Nat
  hiveWr : Nat
  e0Us : Nat
  stepMax : Nat
  stepSum : Nat
  /-- a snapshot is requested -/
  request : Bool
  deriving DecidableEq, Repr

/-! ### Swarm, barrier and roster -/

/-- What the contributions of a chunk agree on (R341, R344). -/
structure ChunkShape where
  op : Nat
  fmt : Nat
  block : Bool
  chunks : Nat
  elems : Nat
  /-- body length in bytes -/
  len : Nat
  root : Nat
  deriving DecidableEq, Repr

/-- A child contribution held at a node: which child, poisoned or not, and its P4 cell. -/
structure SwmIn where
  child : Nat
  poison : Bool
  cell : Option Handle
  deriving DecidableEq, Repr

/-- A node of a chunk's tree that sits on this package (R345): level 0 package, 1 tray, 2 rack, 3 domain,
4 collective. -/
structure SwmNode where
  level : Nat
  /-- contributions not yet added or forwarded, in arrival order -/
  held : List SwmIn
  /-- children whose contribution has arrived -/
  got : List Nat
  /-- children added -/
  added : List Nat
  /-- the running sum: binary32 codes, or integers modulo 2^64 (R347) -/
  acc : Option (List Nat)
  /-- its output has been produced, or it has none to produce -/
  done : Bool
  /-- the result it has had from above or made as root: 0 none, 1 good, 2 poisoned -/
  res : Nat
  deriving DecidableEq, Repr

/-- A chunk held at this package (R352). -/
structure Chunk where
  step : Nat
  group : Nat
  coll : Nat
  chunk : Nat
  shape : ChunkShape
  nodes : List SwmNode
  poison : Bool
  /-- dies whose SWARM_OUT has left, and dies whose first SWARM_SIGNAL has left -/
  good : List Nat
  told : List Nat
  /-- counted in SWARM_DEFER_CNT (R349) -/
  deferred : Bool
  final : Bool
  deriving DecidableEq, Repr

/-- A message that waits for a die: a result (its cell) or a signal (its STATUS). -/
structure SwmOut where
  die : Nat
  key : Nat × Nat × Nat × Nat
  shape : ChunkShape
  cell : Option Handle
  status : Nat
  deriving DecidableEq, Repr

structure Swarm where
  chunks : List Chunk
  outs : List SwmOut
  /-- the reduced counts of group 15, by chunk, at the Keepers (R336) -/
  keeper : List (Nat × List Nat)
  /-- the step is marked poisoned (R356) -/
  mark : List Nat
  /-- steps of which a die was sent LATE_POISON for a chunk (R342, A2) -/
  late : List Nat
  deriving DecidableEq, Repr

/-- The step barrier (R357 to R366). -/
structure Barrier where
  open_ : Bool
  step : Nat
  /-- excluded packages, ascending -/
  excl : List Nat
  /-- children counted at the current VERSION: (level, child, poison) -/
  kids : List (Nat × Nat × Bool)
  /-- ARRIVEs held: (step, source, version, poison) -/
  ahead : List (Nat × Nat × Nat × Bool)
  arrived : Bool
  /-- own nodes whose ARRIVE has gone up at the current VERSION -/
  sent : List Nat
  poison : Bool
  /-- fire cycle, F-MOVE cycles -/
  fireAt : Option Nat
  armed : Bool
  /-- the last barrier fired here and its poison mark -/
  fired : Option (Nat × Bool)
  deriving DecidableEq, Repr

/-- A running revision (R240). -/
structure Rev where
  sw : Nat
  epoch : Nat
  /-- snapshot of every D, keyed 1,024 × layer + expert; none before the snapshot -/
  snap : Option (SMap Nat)
  late : Bool
  /-- ROSTER_LIMITS and ROSTER_QUOTA as taken at the snapshot (R258) -/
  limits : Word
  quota : Nat
  digest : Option Nat
  voted : Bool
  /-- leader: (member, ready, digest) -/
  votes : List (Nat × Bool × Nat)
  /-- members lost before the snapshot -/
  lost : List Nat
  deriving DecidableEq, Repr

/-- A departure that awaits its effective step (R250, R254). -/
structure Departure where
  pkg : Nat
  step : Nat
  loss : Bool
  deriving DecidableEq, Repr

structure Joiner where
  pkg : Nat
  step : Nat
  epoch : Nat
  deriving DecidableEq, Repr

structure Roster where
  /-- demand counters D (R238) -/
  demand : SMap Nat
  rev : Option Rev
  /-- a REV_START (sw, epoch) of an epoch that this package has not come to yet -/
  startHeld : Option (Nat × Nat)
  /-- leader: REV_START is due at the next boundary -/
  startDue : Bool
  /-- a join took effect at the last boundary: the leader sends REV_START at the next -/
  joined : Bool
  /-- JOIN_REQs held -/
  reqs : List Nat
  joiners : List Joiner
  departs : List Departure
  /-- packages treated as lost (R252) -/
  lost : List Nat
  /-- LOSS messages received: (package, effective step) -/
  seen : List (Nat × Nat)
  /-- since when each member has had no reachable route -/
  unreach : SMap (Option Nat)
  /-- own join: requests are being sent -/
  asking : Bool
  /-- RETRY_MS has passed without a JOIN_ACK: the next boundary asks again (R427) -/
  askDue : Bool
  /-- own join: effective step and epoch of the JOIN_ACK -/
  ackStep : Option Nat
  ackEpoch : Nat
  /-- bytes of the roster received in order, and the total announced -/
  got : Nat
  total : Nat
  /-- the join failed and its LOSS was sent -/
  joinFailed : Bool
  /-- isolation is to be acted on at the next boundary (R433) -/
  isolated : Bool
  /-- isolated from its fleet: it joins again once a route returns (R433) -/
  cutOff : Bool
  deriving DecidableEq, Repr

/-- A damaged word in a queue, which its next reader meets (R461 to R463). No command damages a word: this is what the
environment may have done. -/
inductive Upset where
  /-- parity: the next die-port message read from the HS or RES staging of port a -/
  | dieMsg (a : Nat)
  /-- parity: the next message read from a queue toward the compute die of port a -/
  | dieOut (a : Nat)
  /-- parity: the next received packet read of link n -/
  | packet (n : Nat)
  /-- parity: the next entry read from the packet or manifest queue of cluster c -/
  | cluQ (c : Nat)
  /-- parity: the next tile append read by cluster c -/
  | append (c : Nat)
  /-- parity: the next combine record read by Ladle a -/
  | combine (a : Nat)
  /-- parity: the next packet descriptor read by the Forager of link n -/
  | desc (n : Nat)
  /-- parity: the capacity-pass state of a (layer, half) -/
  | capPass (l h : Nat)
  /-- SECDED, uncorrectable or not: the Recipe queue -/
  | recipeQ (ue : Bool)
  /-- SECDED: the Swarm's control queues -/
  | swarmQ (ue : Bool)
  /-- SECDED: the SWM staging of die port a -/
  | swmStage (a : Nat) (ue : Bool)
  /-- SECDED: a header in the retry buffer of link n -/
  | retryHdr (n : Nat) (ue : Bool)
  deriving DecidableEq, Repr

/-- A control error of the running command (R464). -/
structure CtrlErr where
  src : Nat
  unit : Nat
  stream : Option Nat
  deriving DecidableEq, Repr

end Sys2Proof.Machine
end

