-- ==== Sys2Proof/Machine/RegMap.lean ====
section
/-! DEFINITION. Machine/RegMap.lean: the register index of spec/17 (R486, R487, R492 to R496) with the field tables of
the owning chapters: offsets, fields, access codes (R7) and reset values (R8). -/

namespace Sys2Proof.Machine

/-- A field of a register: the register's window offset and the field's bits [hi:lo]. -/
structure Fld where
  off : Nat
  hi : Nat
  lo : Nat
  deriving DecidableEq, Repr

/-- One row of the register index: `count` instances `stride` apart, each with `count2` words `stride2` apart;
the reset word; and, bit by bit, the access codes of R7. A bit in no mask but `st` is RO or reserved. -/
structure RegSpec where
  base : Nat
  count : Nat := 1
  stride : Nat := 0x100000
  count2 : Nat := 1
  stride2 : Nat := 4
  reset : Nat := 0
  rw : Nat := 0
  ilrw : Nat := 0
  il : Nat := 0
  w1c : Nat := 0
  st : Nat := 0
  deriving DecidableEq, Repr

/-! ### Window offsets -/

abbrev R.eidVendor : Nat := 0x0
abbrev R.eidPart : Nat := 0x4
abbrev R.eidStep : Nat := 0x8
abbrev R.eidGrade : Nat := 0xC
abbrev R.eidSerialLo : Nat := 0x10
abbrev R.eidSerialHi : Nat := 0x14
abbrev R.bootStage : Nat := 0x1000
abbrev R.bootStatus : Nat := 0x1004
abbrev R.bootSlot : Nat := 0x1008
abbrev R.bootImgVer : Nat := 0x100C
abbrev R.bootLock : Nat := 0x1010
abbrev R.bootCtl : Nat := 0x1014
abbrev R.bootEvtPort : Nat := 0x1018
abbrev R.bootJoin : Nat := 0x101C
abbrev R.bootJoinSeq : Nat := 0x1020
abbrev R.bootT (i : Nat) : Nat := 0x1024 + 0x4 * i
abbrev R.bootMeas (i : Nat) : Nat := 0x1040 + 0x4 * i
abbrev R.bootJoinCnt : Nat := 0x1080
abbrev R.bootJoinFailCnt : Nat := 0x1084
abbrev R.bootIslandDropCnt : Nat := 0x1088
abbrev R.bootIsolateCnt : Nat := 0x108C
abbrev R.clkState : Nat := 0x2000
abbrev R.clkPwrCtl : Nat := 0x2004
abbrev R.clkWake : Nat := 0x2008
abbrev R.clkVset : Nat := 0x200C
abbrev R.clkE1Cnt : Nat := 0x2040
abbrev R.clkE2Cnt : Nat := 0x2044
abbrev R.clkE3Cnt : Nat := 0x2048
abbrev R.clkMissCnt : Nat := 0x204C
abbrev R.clkEarlyCnt : Nat := 0x2050
abbrev R.clkE1Us : Nat := 0x2054
abbrev R.clkE2Us : Nat := 0x2058
abbrev R.tmrNowLo : Nat := 0x3000
abbrev R.tmrNowHi : Nat := 0x3004
abbrev R.tmrCapLo : Nat := 0x3008
abbrev R.tmrCapHi : Nat := 0x300C
abbrev R.tmrCfg (i : Nat) : Nat := 0x3100 + 0x4 * i
abbrev R.tmrCnt (i : Nat) : Nat := 0x3200 + 0x4 * i
abbrev R.stepRingBaseLo : Nat := 0x4000
abbrev R.stepRingBaseHi : Nat := 0x4004
abbrev R.stepAskBaseLo : Nat := 0x4008
abbrev R.stepAskBaseHi : Nat := 0x400C
abbrev R.stepRingSlots : Nat := 0x4010
abbrev R.stepPollNs : Nat := 0x4014
abbrev R.stepDeadlineUs : Nat := 0x4018
abbrev R.stepFirstSeq : Nat := 0x401C
abbrev R.stepWaitSeq : Nat := 0x4020
abbrev R.stepLastSeq : Nat := 0x4024
abbrev R.stepRefuse : Nat := 0x4028
abbrev R.jobCtl : Nat := 0x4040
abbrev R.jobStatus : Nat := 0x4044
abbrev R.jobId : Nat := 0x4048
abbrev R.jobOwner : Nat := 0x404C
abbrev R.jobEvt : Nat := 0x4050
abbrev R.jobEvtEn : Nat := 0x4054
abbrev R.jobIdleS : Nat := 0x4058
abbrev R.jobLoadErr : Nat := 0x405C
abbrev R.jobModelLo : Nat := 0x4060
abbrev R.jobModelHi : Nat := 0x4064
abbrev R.jobSaveLo : Nat := 0x4068
abbrev R.jobSaveHi : Nat := 0x406C
abbrev R.stepRefuseCnt : Nat := 0x4080
abbrev R.stepDeadlineCnt : Nat := 0x4084
abbrev R.stepOverboundCnt : Nat := 0x4088
abbrev R.jobCmdIgnCnt : Nat := 0x408C
abbrev R.acctJobs (i : Nat) : Nat := 0x5000 + 0x4 * i
abbrev R.sieveCtl (a : Nat) : Nat := 0x10000 + 0x4000 * a
abbrev R.sieveStatus (a : Nat) : Nat := 0x10004 + 0x4000 * a
abbrev R.sieveFloor (a : Nat) : Nat := 0x10008 + 0x4000 * a
abbrev R.sieveSpare (a : Nat) : Nat := 0x1000C + 0x4000 * a
abbrev R.sieveSpareRow (a : Nat) : Nat := 0x10010 + 0x4000 * a
abbrev R.sieveTileCnt (a : Nat) : Nat := 0x10020 + 0x4000 * a
abbrev R.sieveStallCnt (a : Nat) : Nat := 0x10024 + 0x4000 * a
abbrev R.sievePageCnt (a : Nat) : Nat := 0x10028 + 0x4000 * a
abbrev R.sieveFloorCnt (a : Nat) : Nat := 0x1002C + 0x4000 * a
abbrev R.sieveSatCnt (a : Nat) : Nat := 0x10030 + 0x4000 * a
abbrev R.sieveRecErrCnt (a : Nat) : Nat := 0x10034 + 0x4000 * a
abbrev R.selStatus (a : Nat) : Nat := 0x10100 + 0x4000 * a
abbrev R.selTokCnt (a : Nat) : Nat := 0x10104 + 0x4000 * a
abbrev R.selNonfiniteCnt (a : Nat) : Nat := 0x10108 + 0x4000 * a
abbrev R.selSpillCnt (a : Nat) : Nat := 0x1010C + 0x4000 * a
abbrev R.selDropCnt (a : Nat) : Nat := 0x10110 + 0x4000 * a
abbrev R.selRecErrCnt (a : Nat) : Nat := 0x10114 + 0x4000 * a
abbrev R.whiskCtl : Nat := 0x20000
abbrev R.fmtAllowDisp : Nat := 0x20004
abbrev R.fmtAllowComb : Nat := 0x20008
abbrev R.whiskScaleSet : Nat := 0x2000C
abbrev R.whiskTokCnt (a : Nat) : Nat := 0x20100 + 0x40 * a
abbrev R.whiskSatCnt (a : Nat) : Nat := 0x20104 + 0x40 * a
abbrev R.whiskUnfCnt (a : Nat) : Nat := 0x20108 + 0x40 * a
abbrev R.whiskNanCnt (a : Nat) : Nat := 0x2010C + 0x40 * a
abbrev R.whiskResSatCnt (a : Nat) : Nat := 0x20110 + 0x40 * a
abbrev R.whiskRecErrCnt (a : Nat) : Nat := 0x20114 + 0x40 * a
abbrev R.whiskScale (i : Nat) : Nat := 0x20400 + 0x4 * i
abbrev R.hiveLayout : Nat := 0x30000
abbrev R.hiveSlotCnt : Nat := 0x30004
abbrev R.hiveSlotPeer : Nat := 0x30008
abbrev R.hiveSlotFree : Nat := 0x3000C
abbrev R.hiveClass : Nat := 0x30010
abbrev R.hiveArb : Nat := 0x30014
abbrev R.hiveRef : Nat := 0x30018
abbrev R.hiveZero : Nat := 0x3001C
abbrev R.hiveZeroCnt : Nat := 0x30020
abbrev R.hiveStatus : Nat := 0x30024
abbrev R.hiveRsvT : Nat := 0x30028
abbrev R.hiveRsvSlot : Nat := 0x3002C
abbrev R.hiveCeCnt : Nat := 0x30040
abbrev R.hiveUeCnt : Nat := 0x30044
abbrev R.hiveLinkErrCnt : Nat := 0x30048
abbrev R.hiveStaleCnt : Nat := 0x3004C
abbrev R.hiveWaitCnt : Nat := 0x30050
abbrev R.hivePreemptCnt : Nat := 0x30054
abbrev R.hivePoolCnt (a : Nat) : Nat := 0x30100 + 0x20 * a
abbrev R.hivePoolPeer (a : Nat) : Nat := 0x30104 + 0x20 * a
abbrev R.hivePoolBase (a : Nat) : Nat := 0x30108 + 0x20 * a
abbrev R.hivePoolFree (a : Nat) : Nat := 0x3010C + 0x20 * a
abbrev R.hivePoolRsv (a : Nat) : Nat := 0x30110 + 0x20 * a
abbrev R.hivePoolPeak (a : Nat) : Nat := 0x30114 + 0x20 * a
abbrev R.hivePoolFbCnt (a : Nat) : Nat := 0x30118 + 0x20 * a
abbrev R.cluCtl (c : Nat) : Nat := 0x40000 + 0x800 * c
abbrev R.cluStatus (c : Nat) : Nat := 0x40004 + 0x800 * c
abbrev R.cluCut (c : Nat) : Nat := 0x40008 + 0x800 * c
abbrev R.cluFlush (c : Nat) : Nat := 0x4000C + 0x800 * c
abbrev R.cluTile (c : Nat) : Nat := 0x40010 + 0x800 * c
abbrev R.cluHdrTxCnt (c : Nat) : Nat := 0x40020 + 0x800 * c
abbrev R.cluPktTxCnt (c : Nat) : Nat := 0x40024 + 0x800 * c
abbrev R.cluHdrRxCnt (c : Nat) : Nat := 0x40028 + 0x800 * c
abbrev R.cluManTxCnt (c : Nat) : Nat := 0x4002C + 0x800 * c
abbrev R.cluManRxCnt (c : Nat) : Nat := 0x40030 + 0x800 * c
abbrev R.cluTileTxCnt (c : Nat) : Nat := 0x40034 + 0x800 * c
abbrev R.cluStubCnt (c : Nat) : Nat := 0x40038 + 0x800 * c
abbrev R.cluCutAbortCnt (c : Nat) : Nat := 0x4003C + 0x800 * c
abbrev R.cluRxErrCnt (c : Nat) : Nat := 0x40040 + 0x800 * c
abbrev R.cluHoldCnt (c : Nat) : Nat := 0x40044 + 0x800 * c
abbrev R.cluEvtWr (c : Nat) : Nat := 0x40060 + 0x800 * c
abbrev R.cluEvtRd (c : Nat) : Nat := 0x40064 + 0x800 * c
abbrev R.cluEvtLost (c : Nat) : Nat := 0x40068 + 0x800 * c
abbrev R.cluEvt (c : Nat) (i : Nat) : Nat := 0x40400 + 0x800 * c + 0x4 * i
abbrev R.ladleCtl : Nat := 0x50000
abbrev R.ladleStatus : Nat := 0x50004
abbrev R.ladleDigStep : Nat := 0x50008
abbrev R.ladleDigValid (i : Nat) : Nat := 0x50020 + 0x4 * i
abbrev R.ladleState (a : Nat) : Nat := 0x50100 + 0x40 * a
abbrev R.ladleTokCnt (a : Nat) : Nat := 0x50104 + 0x40 * a
abbrev R.ladleContribCnt (a : Nat) : Nat := 0x50108 + 0x40 * a
abbrev R.ladlePoisonCnt (a : Nat) : Nat := 0x5010C + 0x40 * a
abbrev R.ladleUnexpCnt (a : Nat) : Nat := 0x50110 + 0x40 * a
abbrev R.ladleLateCnt (a : Nat) : Nat := 0x50114 + 0x40 * a
abbrev R.ladleSatCnt (a : Nat) : Nat := 0x50118 + 0x40 * a
abbrev R.ladleHeadWaitCnt (a : Nat) : Nat := 0x5011C + 0x40 * a
abbrev R.ladleDigest (i : Nat) : Nat := 0x50400 + 0x4 * i
abbrev R.linkCtl (n : Nat) : Nat := 0x60000 + 0x400 * n
abbrev R.linkStatus (n : Nat) : Nat := 0x60004 + 0x400 * n
abbrev R.linkPeer (n : Nat) : Nat := 0x60008 + 0x400 * n
abbrev R.linkVcbuf (n : Nat) : Nat := 0x6000C + 0x400 * n
abbrev R.linkTmo (n : Nat) : Nat := 0x60010 + 0x400 * n
abbrev R.linkTmo2 (n : Nat) : Nat := 0x60014 + 0x400 * n
abbrev R.linkWaitlim (n : Nat) : Nat := 0x60018 + 0x400 * n
abbrev R.linkRtt (n : Nat) : Nat := 0x6001C + 0x400 * n
abbrev R.linkKey (n : Nat) : Nat := 0x60020 + 0x400 * n
abbrev R.linkCnt (n : Nat) (i : Nat) : Nat := 0x60040 + 0x400 * n + 0x4 * i
abbrev R.linkRtIdx (n : Nat) : Nat := 0x60300 + 0x400 * n
abbrev R.linkRtData (n : Nat) : Nat := 0x60304 + 0x400 * n
abbrev R.swarmCtl : Nat := 0x70000
abbrev R.swarmStatus : Nat := 0x70004
abbrev R.swarmGroup (i : Nat) : Nat := 0x70040 + 0x4 * i
abbrev R.swarmGroup15 : Nat := 0x7007C
abbrev R.swarmBarCtl : Nat := 0x70100
abbrev R.swarmBarTmo : Nat := 0x70104
abbrev R.swarmBarStatus : Nat := 0x70108
abbrev R.swarmBarStep : Nat := 0x7010C
abbrev R.swarmBarTLo : Nat := 0x70110
abbrev R.swarmBarTHi : Nat := 0x70114
abbrev R.swarmChunkCnt : Nat := 0x70200
abbrev R.swarmPoisonCnt : Nat := 0x70204
abbrev R.swarmHdrErrCnt : Nat := 0x70208
abbrev R.swarmLateCnt : Nat := 0x7020C
abbrev R.swarmSatCnt : Nat := 0x70210
abbrev R.swarmCeCnt : Nat := 0x70214
abbrev R.swarmUeCnt : Nat := 0x70218
abbrev R.swarmBarCnt : Nat := 0x7021C
abbrev R.swarmBarLateCnt : Nat := 0x70220
abbrev R.swarmBarRetryCnt : Nat := 0x70224
abbrev R.swarmBarRelayCnt : Nat := 0x70228
abbrev R.swarmBarTmoCnt : Nat := 0x7022C
abbrev R.swarmCapsupCnt : Nat := 0x70230
abbrev R.swarmDeferCnt : Nat := 0x70234
abbrev R.rosterCtl : Nat := 0x80000
abbrev R.rosterSelf : Nat := 0x80004
abbrev R.rosterEpoch : Nat := 0x80008
abbrev R.rosterActStep : Nat := 0x8000C
abbrev R.rosterInterval : Nat := 0x80010
abbrev R.rosterLeadSteps : Nat := 0x80014
abbrev R.rosterLimits : Nat := 0x80018
abbrev R.rosterQuota : Nat := 0x8001C
abbrev R.rosterTiming : Nat := 0x80020
abbrev R.rosterStatus : Nat := 0x80024
abbrev R.rosterDigest : Nat := 0x80028
abbrev R.rosterRevCnt : Nat := 0x80030
abbrev R.rosterAbortCnt : Nat := 0x80034
abbrev R.rosterLossCnt : Nat := 0x80038
abbrev R.rosterLateCnt : Nat := 0x8003C
abbrev R.rosterLostSlotCnt : Nat := 0x80040
abbrev R.rosterRecErrCnt : Nat := 0x80044
abbrev R.rosterServeSel : Nat := 0x80080
abbrev R.rosterServe (i : Nat) : Nat := 0x80100 + 0x4 * i
abbrev R.rasFaultPolicy : Nat := 0x90000
abbrev R.rasStatus : Nat := 0x90004
abbrev R.rasErrFirst : Nat := 0x90008
abbrev R.rasErrFirstT : Nat := 0x9000C
abbrev R.rasErrLast : Nat := 0x90010
abbrev R.rasErrLastT : Nat := 0x90014
abbrev R.rasCtrlErrCnt : Nat := 0x90040
abbrev R.rasPartitionCnt : Nat := 0x90044
abbrev R.rasTeardownCnt : Nat := 0x90048
abbrev R.rasTornRowCnt : Nat := 0x9004C
abbrev R.rasParityCnt : Nat := 0x90050
abbrev R.rasCeCnt : Nat := 0x90054
abbrev R.rasUeCnt : Nat := 0x90058
abbrev R.rasNonfiniteCnt : Nat := 0x9005C
abbrev R.rasBadaccCnt : Nat := 0x90060
abbrev R.rasDmaErrCnt : Nat := 0x90064
abbrev R.rasThmCnt : Nat := 0x90068
abbrev R.rasDieportHdrCnt (i : Nat) : Nat := 0x90080 + 0x4 * i
abbrev R.secLifecycle : Nat := 0xA0000
abbrev R.secZero : Nat := 0xA0004
abbrev R.secKey : Nat := 0xA0008
abbrev R.secMboxErrCnt : Nat := 0xA0040
abbrev R.secRotTmoCnt : Nat := 0xA0044
abbrev R.secKeySetCnt : Nat := 0xA0048
abbrev R.secDbgDenyCnt : Nat := 0xA004C
abbrev R.telCtl : Nat := 0xB0000
abbrev R.telSnapSeq : Nat := 0xB0004
abbrev R.telSnapTLo : Nat := 0xB0008
abbrev R.telSnapTHi : Nat := 0xB000C
abbrev R.telVal (i : Nat) : Nat := 0xB0040 + 0x4 * i
abbrev R.dbgCtl : Nat := 0xF0000
abbrev R.dbgStatus : Nat := 0xF0004
abbrev R.dbgAddrLo : Nat := 0xF0008
abbrev R.dbgAddrHi : Nat := 0xF000C
abbrev R.dbgKeeper : Nat := 0xF0010
abbrev R.dbgData (i : Nat) : Nat := 0xF0020 + 0x4 * i

/-! ### Fields -/

abbrev F.eidVendorVendor : Fld := ⟨R.eidVendor, 15, 0⟩
abbrev F.eidPartPart : Fld := ⟨R.eidPart, 15, 0⟩
abbrev F.eidStepStep : Fld := ⟨R.eidStep, 7, 0⟩
abbrev F.eidGradeRegions : Fld := ⟨R.eidGrade, 27, 24⟩
abbrev F.eidGradeClusters : Fld := ⟨R.eidGrade, 23, 16⟩
abbrev F.eidGradeLinks : Fld := ⟨R.eidGrade, 15, 8⟩
abbrev F.eidGradeSpare : Fld := ⟨R.eidGrade, 3, 0⟩
abbrev F.bootStageMember : Fld := ⟨R.bootStage, 3, 3⟩
abbrev F.bootStagePrep : Fld := ⟨R.bootStage, 2, 2⟩
abbrev F.bootStageStage : Fld := ⟨R.bootStage, 1, 0⟩
abbrev F.bootStatusCode : Fld := ⟨R.bootStatus, 31, 28⟩
abbrev F.bootStatusACode : Fld := ⟨R.bootStatus, 27, 24⟩
abbrev F.bootStatusBCode : Fld := ⟨R.bootStatus, 23, 20⟩
abbrev F.bootStatusResKind : Fld := ⟨R.bootStatus, 19, 18⟩
abbrev F.bootStatusResId : Fld := ⟨R.bootStatus, 17, 0⟩
abbrev F.bootSlotSvn : Fld := ⟨R.bootSlot, 31, 16⟩
abbrev F.bootSlotMode : Fld := ⟨R.bootSlot, 3, 2⟩
abbrev F.bootSlotValid : Fld := ⟨R.bootSlot, 1, 1⟩
abbrev F.bootSlotSlot : Fld := ⟨R.bootSlot, 0, 0⟩
abbrev F.bootLockLock : Fld := ⟨R.bootLock, 0, 0⟩
abbrev F.bootCtlFleet : Fld := ⟨R.bootCtl, 0, 0⟩
abbrev F.bootEvtPortPort : Fld := ⟨R.bootEvtPort, 1, 0⟩
abbrev F.bootJoinRetryMs : Fld := ⟨R.bootJoin, 15, 0⟩
abbrev F.clkStateVddMv : Fld := ⟨R.clkState, 25, 16⟩
abbrev F.clkStateLastWake : Fld := ⟨R.clkState, 7, 4⟩
abbrev F.clkStateWaking : Fld := ⟨R.clkState, 2, 2⟩
abbrev F.clkStateState : Fld := ⟨R.clkState, 1, 0⟩
abbrev F.clkPwrCtlDeepest : Fld := ⟨R.clkPwrCtl, 31, 30⟩
abbrev F.clkPwrCtlE2Min : Fld := ⟨R.clkPwrCtl, 29, 16⟩
abbrev F.clkPwrCtlE3Idle : Fld := ⟨R.clkPwrCtl, 15, 8⟩
abbrev F.clkPwrCtlE1Min : Fld := ⟨R.clkPwrCtl, 7, 0⟩
abbrev F.clkWakeBar : Fld := ⟨R.clkWake, 31, 24⟩
abbrev F.clkWakeHold : Fld := ⟨R.clkWake, 23, 12⟩
abbrev F.clkWakeMargin : Fld := ⟨R.clkWake, 11, 0⟩
abbrev F.clkVsetE0Mv : Fld := ⟨R.clkVset, 9, 0⟩
abbrev F.tmrCfgFeature (i : Nat) : Fld := ⟨R.tmrCfg i, 31, 24⟩
abbrev F.tmrCfgUnit (i : Nat) : Fld := ⟨R.tmrCfg i, 23, 22⟩
abbrev F.tmrCfgPeriodic (i : Nat) : Fld := ⟨R.tmrCfg i, 21, 21⟩
abbrev F.tmrCfgRun (i : Nat) : Fld := ⟨R.tmrCfg i, 20, 20⟩
abbrev F.tmrCfgPeriod (i : Nat) : Fld := ⟨R.tmrCfg i, 19, 0⟩
abbrev F.stepRingBaseLoAddr : Fld := ⟨R.stepRingBaseLo, 31, 12⟩
abbrev F.stepAskBaseLoAddr : Fld := ⟨R.stepAskBaseLo, 31, 15⟩
abbrev F.stepRingSlotsLog2 : Fld := ⟨R.stepRingSlots, 3, 0⟩
abbrev F.stepPollNsNs : Fld := ⟨R.stepPollNs, 15, 0⟩
abbrev F.stepRefuseCode : Fld := ⟨R.stepRefuse, 31, 28⟩
abbrev F.jobCtlCmd : Fld := ⟨R.jobCtl, 2, 0⟩
abbrev F.jobStatusState : Fld := ⟨R.jobStatus, 31, 29⟩
abbrev F.jobStatusEndReason : Fld := ⟨R.jobStatus, 28, 25⟩
abbrev F.jobStatusEndPending : Fld := ⟨R.jobStatus, 24, 24⟩
abbrev F.jobStatusLastStatus : Fld := ⟨R.jobStatus, 18, 16⟩
abbrev F.jobIdId : Fld := ⟨R.jobId, 15, 0⟩
abbrev F.jobOwnerValid : Fld := ⟨R.jobOwner, 31, 31⟩
abbrev F.jobOwnerPort : Fld := ⟨R.jobOwner, 1, 0⟩
abbrev F.jobEvtBits : Fld := ⟨R.jobEvt, 6, 0⟩
abbrev F.jobEvtEnBits : Fld := ⟨R.jobEvtEn, 6, 0⟩
abbrev F.jobIdleSS : Fld := ⟨R.jobIdleS, 15, 0⟩
abbrev F.jobLoadErrCode : Fld := ⟨R.jobLoadErr, 31, 28⟩
abbrev F.jobLoadErrLayer : Fld := ⟨R.jobLoadErr, 27, 19⟩
abbrev F.jobLoadErrSegment : Fld := ⟨R.jobLoadErr, 10, 0⟩
abbrev F.jobModelLoAddr : Fld := ⟨R.jobModelLo, 31, 6⟩
abbrev F.jobSaveLoAddr : Fld := ⟨R.jobSaveLo, 31, 12⟩
abbrev F.acctJobsEnded (i : Nat) : Fld := ⟨R.acctJobs i, 31, 16⟩
abbrev F.acctJobsStarted (i : Nat) : Fld := ⟨R.acctJobs i, 15, 0⟩
abbrev F.sieveCtlShapeMode (a : Nat) : Fld := ⟨R.sieveCtl a, 2, 1⟩
abbrev F.sieveCtlPrefetch (a : Nat) : Fld := ⟨R.sieveCtl a, 0, 0⟩
abbrev F.sieveStatusLayer (a : Nat) : Fld := ⟨R.sieveStatus a, 31, 24⟩
abbrev F.sieveStatusHalf (a : Nat) : Fld := ⟨R.sieveStatus a, 23, 23⟩
abbrev F.sieveStatusShape (a : Nat) : Fld := ⟨R.sieveStatus a, 22, 21⟩
abbrev F.sieveStatusStreamed (a : Nat) : Fld := ⟨R.sieveStatus a, 20, 20⟩
abbrev F.sieveStatusNextLayer (a : Nat) : Fld := ⟨R.sieveStatus a, 19, 12⟩
abbrev F.sieveStatusNextReady (a : Nat) : Fld := ⟨R.sieveStatus a, 11, 11⟩
abbrev F.sieveStatusBusy (a : Nat) : Fld := ⟨R.sieveStatus a, 10, 10⟩
abbrev F.sieveFloorGap (a : Nat) : Fld := ⟨R.sieveFloor a, 27, 16⟩
abbrev F.sieveFloorEn (a : Nat) : Fld := ⟨R.sieveFloor a, 0, 0⟩
abbrev F.sieveSpareLatAdd (a : Nat) : Fld := ⟨R.sieveSpare a, 8, 8⟩
abbrev F.sieveSpareCnt (a : Nat) : Fld := ⟨R.sieveSpare a, 2, 0⟩
abbrev F.selStatusLayer (a : Nat) : Fld := ⟨R.selStatus a, 31, 24⟩
abbrev F.selStatusHalf (a : Nat) : Fld := ⟨R.selStatus a, 23, 23⟩
abbrev F.selStatusBusy (a : Nat) : Fld := ⟨R.selStatus a, 22, 22⟩
abbrev F.selStatusCapPass (a : Nat) : Fld := ⟨R.selStatus a, 21, 21⟩
abbrev F.whiskCtlWaitlim : Fld := ⟨R.whiskCtl, 16, 8⟩
abbrev F.whiskCtlAdaptEn : Fld := ⟨R.whiskCtl, 0, 0⟩
abbrev F.fmtAllowDispMask : Fld := ⟨R.fmtAllowDisp, 15, 0⟩
abbrev F.fmtAllowCombMask : Fld := ⟨R.fmtAllowComb, 15, 0⟩
abbrev F.whiskScaleSetPend : Fld := ⟨R.whiskScaleSet, 16, 16⟩
abbrev F.whiskScaleSetLayer : Fld := ⟨R.whiskScaleSet, 15, 8⟩
abbrev F.whiskScaleSetOffset : Fld := ⟨R.whiskScaleSet, 7, 0⟩
abbrev F.whiskScaleHold (i : Nat) : Fld := ⟨R.whiskScale i, 15, 8⟩
abbrev F.whiskScaleOffset (i : Nat) : Fld := ⟨R.whiskScale i, 7, 0⟩
abbrev F.hiveLayoutGateSize : Fld := ⟨R.hiveLayout, 21, 16⟩
abbrev F.hiveLayoutMetaSize : Fld := ⟨R.hiveLayout, 6, 0⟩
abbrev F.hiveSlotCntN : Fld := ⟨R.hiveSlotCnt, 23, 0⟩
abbrev F.hiveSlotPeerN : Fld := ⟨R.hiveSlotPeer, 23, 0⟩
abbrev F.hiveSlotFreeN : Fld := ⟨R.hiveSlotFree, 23, 0⟩
abbrev F.hiveClassHsfmt : Fld := ⟨R.hiveClass, 7, 4⟩
abbrev F.hiveClassResChain : Fld := ⟨R.hiveClass, 2, 2⟩
abbrev F.hiveClassDispChain : Fld := ⟨R.hiveClass, 1, 1⟩
abbrev F.hiveClassHsChain : Fld := ⟨R.hiveClass, 0, 0⟩
abbrev F.hiveArbWaitlim : Fld := ⟨R.hiveArb, 9, 0⟩
abbrev F.hiveRefInterval : Fld := ⟨R.hiveRef, 9, 0⟩
abbrev F.hiveZeroBusy : Fld := ⟨R.hiveZero, 31, 31⟩
abbrev F.hiveZeroReason : Fld := ⟨R.hiveZero, 30, 28⟩
abbrev F.hiveStatusSelfref : Fld := ⟨R.hiveStatus, 9, 9⟩
abbrev F.hiveStatusShort : Fld := ⟨R.hiveStatus, 8, 8⟩
abbrev F.hiveStatusBroken : Fld := ⟨R.hiveStatus, 4, 0⟩
abbrev F.cluCtlEvtInfo (c : Nat) : Fld := ⟨R.cluCtl c, 0, 0⟩
abbrev F.cluStatusTxLayer (c : Nat) : Fld := ⟨R.cluStatus c, 31, 24⟩
abbrev F.cluStatusTxHalf (c : Nat) : Fld := ⟨R.cluStatus c, 23, 23⟩
abbrev F.cluStatusTxPhase (c : Nat) : Fld := ⟨R.cluStatus c, 22, 20⟩
abbrev F.cluStatusHolding (c : Nat) : Fld := ⟨R.cluStatus c, 19, 19⟩
abbrev F.cluCutBytes (c : Nat) : Fld := ⟨R.cluCut c, 19, 0⟩
abbrev F.cluFlushScope (c : Nat) : Fld := ⟨R.cluFlush c, 31, 30⟩
abbrev F.cluFlushActive (c : Nat) : Fld := ⟨R.cluFlush c, 29, 29⟩
abbrev F.cluFlushStream (c : Nat) : Fld := ⟨R.cluFlush c, 13, 0⟩
abbrev F.cluTileRowmult (c : Nat) : Fld := ⟨R.cluTile c, 7, 0⟩
abbrev F.cluEvtWrCount (c : Nat) : Fld := ⟨R.cluEvtWr c, 14, 8⟩
abbrev F.cluEvtWrIndex (c : Nat) : Fld := ⟨R.cluEvtWr c, 5, 0⟩
abbrev F.cluEvtRdRd (c : Nat) : Fld := ⟨R.cluEvtRd c, 5, 0⟩
abbrev F.ladleCtlMsgRows : Fld := ⟨R.ladleCtl, 14, 8⟩
abbrev F.ladleCtlOutFp32 : Fld := ⟨R.ladleCtl, 0, 0⟩
abbrev F.ladleStatusOrdered : Fld := ⟨R.ladleStatus, 0, 0⟩
abbrev F.ladleStateLayer (a : Nat) : Fld := ⟨R.ladleState a, 31, 24⟩
abbrev F.ladleStateHalf (a : Nat) : Fld := ⟨R.ladleState a, 23, 23⟩
abbrev F.ladleStateBusy (a : Nat) : Fld := ⟨R.ladleState a, 22, 22⟩
abbrev F.ladleStateWindow (a : Nat) : Fld := ⟨R.ladleState a, 12, 0⟩
abbrev F.linkCtlEn (n : Nat) : Fld := ⟨R.linkCtl n, 31, 31⟩
abbrev F.linkCtlEnc (n : Nat) : Fld := ⟨R.linkCtl n, 30, 30⟩
abbrev F.linkCtlExpEn (n : Nat) : Fld := ⟨R.linkCtl n, 29, 29⟩
abbrev F.linkCtlExpLink (n : Nat) : Fld := ⟨R.linkCtl n, 28, 23⟩
abbrev F.linkCtlExpPeer (n : Nat) : Fld := ⟨R.linkCtl n, 19, 8⟩
abbrev F.linkStatusState (n : Nat) : Fld := ⟨R.linkStatus n, 31, 29⟩
abbrev F.linkStatusLanesUp (n : Nat) : Fld := ⟨R.linkStatus n, 28, 25⟩
abbrev F.linkStatusMiswire (n : Nat) : Fld := ⟨R.linkStatus n, 24, 24⟩
abbrev F.linkStatusResyncWait (n : Nat) : Fld := ⟨R.linkStatus n, 23, 23⟩
abbrev F.linkStatusQuietPeer (n : Nat) : Fld := ⟨R.linkStatus n, 22, 22⟩
abbrev F.linkStatusRetryOcc (n : Nat) : Fld := ⟨R.linkStatus n, 15, 8⟩
abbrev F.linkPeerValid (n : Nat) : Fld := ⟨R.linkPeer n, 31, 31⟩
abbrev F.linkPeerGrade (n : Nat) : Fld := ⟨R.linkPeer n, 30, 30⟩
abbrev F.linkPeerPeerLink (n : Nat) : Fld := ⟨R.linkPeer n, 23, 18⟩
abbrev F.linkPeerPeerId (n : Nat) : Fld := ⟨R.linkPeer n, 11, 0⟩
abbrev F.linkTmoCreditUs (n : Nat) : Fld := ⟨R.linkTmo n, 31, 24⟩
abbrev F.linkTmoAliveUs (n : Nat) : Fld := ⟨R.linkTmo n, 23, 16⟩
abbrev F.linkTmoMaxretry (n : Nat) : Fld := ⟨R.linkTmo n, 11, 8⟩
abbrev F.linkTmoRetryUs (n : Nat) : Fld := ⟨R.linkTmo n, 7, 0⟩
abbrev F.linkTmo2TrainMs (n : Nat) : Fld := ⟨R.linkTmo2 n, 31, 16⟩
abbrev F.linkTmo2DeadMs (n : Nat) : Fld := ⟨R.linkTmo2 n, 15, 0⟩
abbrev F.linkWaitlimLimit (n : Nat) : Fld := ⟨R.linkWaitlim n, 9, 0⟩
abbrev F.linkRttDelay (n : Nat) : Fld := ⟨R.linkRtt n, 31, 16⟩
abbrev F.linkRttRtt (n : Nat) : Fld := ⟨R.linkRtt n, 15, 0⟩
abbrev F.linkKeyTxReady (n : Nat) : Fld := ⟨R.linkKey n, 5, 5⟩
abbrev F.linkKeyTxKey (n : Nat) : Fld := ⟨R.linkKey n, 4, 4⟩
abbrev F.linkKeyTxKg (n : Nat) : Fld := ⟨R.linkKey n, 3, 3⟩
abbrev F.linkKeyRxKey (n : Nat) : Fld := ⟨R.linkKey n, 2, 2⟩
abbrev F.linkKeyRxKg (n : Nat) : Fld := ⟨R.linkKey n, 1, 1⟩
abbrev F.linkRtIdxMember (n : Nat) : Fld := ⟨R.linkRtIdx n, 11, 0⟩
abbrev F.swarmCtlWin : Fld := ⟨R.swarmCtl, 4, 0⟩
abbrev F.swarmStatusOpen : Fld := ⟨R.swarmStatus, 31, 24⟩
abbrev F.swarmStatusBusy : Fld := ⟨R.swarmStatus, 23, 23⟩
abbrev F.swarmStatusDefer : Fld := ⟨R.swarmStatus, 22, 22⟩
abbrev F.swarmGroupScope (i : Nat) : Fld := ⟨R.swarmGroup i, 31, 29⟩
abbrev F.swarmGroupDies (i : Nat) : Fld := ⟨R.swarmGroup i, 28, 25⟩
abbrev F.swarmGroupChunk (i : Nat) : Fld := ⟨R.swarmGroup i, 24, 22⟩
abbrev F.swarmGroupDoms (i : Nat) : Fld := ⟨R.swarmGroup i, 19, 12⟩
abbrev F.swarmGroupRep (i : Nat) : Fld := ⟨R.swarmGroup i, 8, 0⟩
abbrev F.swarmBarCtlExt : Fld := ⟨R.swarmBarCtl, 31, 31⟩
abbrev F.swarmBarCtlXdom : Fld := ⟨R.swarmBarCtl, 30, 30⟩
abbrev F.swarmBarCtlXgrp : Fld := ⟨R.swarmBarCtl, 29, 26⟩
abbrev F.swarmBarCtlLead : Fld := ⟨R.swarmBarCtl, 15, 0⟩
abbrev F.swarmBarTmoMs : Fld := ⟨R.swarmBarTmo, 15, 0⟩
abbrev F.swarmBarStatusState : Fld := ⟨R.swarmBarStatus, 31, 30⟩
abbrev F.swarmBarStatusRoot : Fld := ⟨R.swarmBarStatus, 29, 29⟩
abbrev F.swarmBarStatusLate : Fld := ⟨R.swarmBarStatus, 28, 28⟩
abbrev F.swarmBarStatusPoison : Fld := ⟨R.swarmBarStatus, 27, 27⟩
abbrev F.swarmBarStatusVersion : Fld := ⟨R.swarmBarStatus, 9, 0⟩
abbrev F.rosterCtlFounder : Fld := ⟨R.rosterCtl, 1, 1⟩
abbrev F.rosterCtlRevEn : Fld := ⟨R.rosterCtl, 0, 0⟩
abbrev F.rosterSelfDom : Fld := ⟨R.rosterSelf, 11, 9⟩
abbrev F.rosterSelfPkg : Fld := ⟨R.rosterSelf, 8, 0⟩
abbrev F.rosterEpochStaged : Fld := ⟨R.rosterEpoch, 31, 16⟩
abbrev F.rosterEpochActive : Fld := ⟨R.rosterEpoch, 15, 0⟩
abbrev F.rosterIntervalSeconds : Fld := ⟨R.rosterInterval, 11, 0⟩
abbrev F.rosterLeadStepsLead : Fld := ⟨R.rosterLeadSteps, 9, 0⟩
abbrev F.rosterLimitsP : Fld := ⟨R.rosterLimits, 31, 24⟩
abbrev F.rosterLimitsSmax : Fld := ⟨R.rosterLimits, 21, 15⟩
abbrev F.rosterLimitsSmin : Fld := ⟨R.rosterLimits, 12, 6⟩
abbrev F.rosterLimitsHys : Fld := ⟨R.rosterLimits, 4, 0⟩
abbrev F.rosterQuotaLqf : Fld := ⟨R.rosterQuota, 7, 0⟩
abbrev F.rosterTimingLossUs : Fld := ⟨R.rosterTiming, 31, 16⟩
abbrev F.rosterTimingRevGap : Fld := ⟨R.rosterTiming, 15, 8⟩
abbrev F.rosterTimingVoteSteps : Fld := ⟨R.rosterTiming, 7, 0⟩
abbrev F.rosterStatusPhase : Fld := ⟨R.rosterStatus, 31, 29⟩
abbrev F.rosterStatusLeader : Fld := ⟨R.rosterStatus, 28, 28⟩
abbrev F.rosterStatusDrain : Fld := ⟨R.rosterStatus, 27, 25⟩
abbrev F.rosterStatusMembers : Fld := ⟨R.rosterStatus, 24, 15⟩
abbrev F.rosterStatusCopy : Fld := ⟨R.rosterStatus, 14, 14⟩
abbrev F.rosterServeSelCopy : Fld := ⟨R.rosterServeSel, 8, 8⟩
abbrev F.rosterServeSelLayer : Fld := ⟨R.rosterServeSel, 7, 0⟩
abbrev F.rasFaultPolicyTdMax : Fld := ⟨R.rasFaultPolicy, 15, 8⟩
abbrev F.rasFaultPolicyMode : Fld := ⟨R.rasFaultPolicy, 0, 0⟩
abbrev F.rasStatusFatal : Fld := ⟨R.rasStatus, 31, 31⟩
abbrev F.rasStatusPartBusy : Fld := ⟨R.rasStatus, 30, 30⟩
abbrev F.rasStatusLastAction : Fld := ⟨R.rasStatus, 1, 0⟩
abbrev F.rasErrFirstSrc : Fld := ⟨R.rasErrFirst, 31, 24⟩
abbrev F.rasErrFirstValid : Fld := ⟨R.rasErrFirst, 23, 23⟩
abbrev F.rasErrFirstAttr : Fld := ⟨R.rasErrFirst, 22, 22⟩
abbrev F.rasErrFirstUnit : Fld := ⟨R.rasErrFirst, 21, 16⟩
abbrev F.rasErrFirstStream : Fld := ⟨R.rasErrFirst, 13, 0⟩
abbrev F.rasErrLastSrc : Fld := ⟨R.rasErrLast, 31, 24⟩
abbrev F.rasErrLastValid : Fld := ⟨R.rasErrLast, 23, 23⟩
abbrev F.rasErrLastAttr : Fld := ⟨R.rasErrLast, 22, 22⟩
abbrev F.rasErrLastUnit : Fld := ⟨R.rasErrLast, 21, 16⟩
abbrev F.rasErrLastStream : Fld := ⟨R.rasErrLast, 13, 0⟩
abbrev F.secLifecycleState : Fld := ⟨R.secLifecycle, 1, 0⟩
abbrev F.secZeroKeysErased : Fld := ⟨R.secZero, 1, 1⟩
abbrev F.secZeroClean : Fld := ⟨R.secZero, 0, 0⟩
abbrev F.secKeyJob : Fld := ⟨R.secKey, 31, 16⟩
abbrev F.secKeyRxLinks : Fld := ⟨R.secKey, 13, 7⟩
abbrev F.secKeyTxLinks : Fld := ⟨R.secKey, 6, 0⟩
abbrev F.telCtlSnap : Fld := ⟨R.telCtl, 0, 0⟩
abbrev F.dbgCtlGo : Fld := ⟨R.dbgCtl, 31, 31⟩
abbrev F.dbgCtlWrite : Fld := ⟨R.dbgCtl, 30, 30⟩
abbrev F.dbgStatusBusy : Fld := ⟨R.dbgStatus, 1, 1⟩
abbrev F.dbgStatusErr : Fld := ⟨R.dbgStatus, 0, 0⟩
abbrev F.dbgAddrLoAddr : Fld := ⟨R.dbgAddrLo, 31, 5⟩
abbrev F.dbgAddrHiAddr : Fld := ⟨R.dbgAddrHi, 2, 0⟩
abbrev F.dbgKeeperHalt : Fld := ⟨R.dbgKeeper, 8, 0⟩

/-! ### The index -/

def specsEid : List RegSpec := [
  { base := 0x0, reset := 0x7AF0 },
  { base := 0x4 },
  { base := 0x8 },
  { base := 0xC },
  { base := 0x10 },
  { base := 0x14 }]

def specsBoot : List RegSpec := [
  { base := 0x1000, st := 0x7 },
  { base := 0x1004, st := 0xFFFFFFFF },
  { base := 0x1008, st := 0xFFFF000F },
  { base := 0x100C, st := 0xFFFFFFFF },
  { base := 0x1010, st := 0x1 },
  { base := 0x1014, ilrw := 0x1, st := 0x1 },
  { base := 0x1018, ilrw := 0x3, st := 0x3 },
  { base := 0x101C, reset := 0xA, ilrw := 0xFFFF, st := 0xFFFF },
  { base := 0x1020, st := 0xFFFFFFFF },
  { base := 0x1024, count2 := 3, st := 0xFFFFFFFF },
  { base := 0x1040, count2 := 12, st := 0xFFFFFFFF },
  { base := 0x1080, st := 0xFFFFFFFF },
  { base := 0x1084, st := 0xFFFFFFFF },
  { base := 0x1088, st := 0xFFFFFFFF },
  { base := 0x108C, st := 0xFFFFFFFF }]

def specsClk : List RegSpec := [
  { base := 0x2000 },
  { base := 0x2004, reset := 0xC0640A14, ilrw := 0xFFFFFFFF, st := 0xFFFFFFFF },
  { base := 0x2008, reset := 0x1000A1A4, ilrw := 0xFFFFFFFF, st := 0xFFFFFFFF },
  { base := 0x200C, il := 0x3FF, st := 0x3FF },
  { base := 0x2040, st := 0xFFFFFFFF },
  { base := 0x2044, st := 0xFFFFFFFF },
  { base := 0x2048, st := 0xFFFFFFFF },
  { base := 0x204C, st := 0xFFFFFFFF },
  { base := 0x2050, st := 0xFFFFFFFF },
  { base := 0x2054, st := 0xFFFFFFFF },
  { base := 0x2058, st := 0xFFFFFFFF },
  { base := 0x3000 },
  { base := 0x3004 },
  { base := 0x3008, st := 0xFFFFFFFF },
  { base := 0x300C, st := 0xFFFFFFFF },
  { base := 0x3100, count2 := 32, ilrw := 0xFFFFF, il := 0xFFE00000, st := 0xFFEFFFFF },
  { base := 0x3200, count2 := 32 }]

def specsJob0 : List RegSpec := [
  { base := 0x4000, rw := 0xFFFFF000, st := 0xFFFFF000 },
  { base := 0x4004, rw := 0xFFFFFFFF, st := 0xFFFFFFFF },
  { base := 0x4008, rw := 0xFFFF8000, st := 0xFFFF8000 },
  { base := 0x400C, rw := 0xFFFFFFFF, st := 0xFFFFFFFF },
  { base := 0x4010, reset := 0x6, ilrw := 0xF, st := 0xF },
  { base := 0x4014, reset := 0x3E8, ilrw := 0xFFFF, st := 0xFFFF },
  { base := 0x4018, reset := 0x186A0, ilrw := 0xFFFFFFFF, st := 0xFFFFFFFF },
  { base := 0x401C, rw := 0xFFFFFFFF, st := 0xFFFFFFFF },
  { base := 0x4020, st := 0xFFFFFFFF },
  { base := 0x4024, st := 0xFFFFFFFF },
  { base := 0x4028, st := 0xF0000000 },
  { base := 0x4040, rw := 0x7, st := 0x7 },
  { base := 0x4044, st := 0xFF070000 },
  { base := 0x4048, st := 0xFFFF },
  { base := 0x404C, st := 0x80000003 },
  { base := 0x4050, w1c := 0x7F, st := 0x7F },
  { base := 0x4054, rw := 0x7F, st := 0x7F },
  { base := 0x4058, reset := 0x3C, ilrw := 0xFFFF, st := 0xFFFF },
  { base := 0x405C, st := 0xFFF807FF },
  { base := 0x4060, rw := 0xFFFFFFC0, st := 0xFFFFFFC0 },
  { base := 0x4064, rw := 0xFFFFFFFF, st := 0xFFFFFFFF },
  { base := 0x4068, rw := 0xFFFFF000, st := 0xFFFFF000 },
  { base := 0x406C, rw := 0xFFFFFFFF, st := 0xFFFFFFFF },
  { base := 0x4080, st := 0xFFFFFFFF },
  { base := 0x4084, st := 0xFFFFFFFF }]

def specsJob1 : List RegSpec := [
  { base := 0x4088, st := 0xFFFFFFFF },
  { base := 0x408C, st := 0xFFFFFFFF },
  { base := 0x5000, count2 := 4, st := 0xFFFFFFFF }]

def specsJob : List RegSpec := specsJob0 ++ specsJob1

def specsSieve : List RegSpec := [
  { base := 0x10000, count := 4, stride := 0x4000, reset := 0x1, ilrw := 0x7 },
  { base := 0x10004, count := 4, stride := 0x4000 },
  { base := 0x10008, count := 4, stride := 0x4000, reset := 0x2000000, ilrw := 0xFFF0001 },
  { base := 0x1000C, count := 4, stride := 0x4000 },
  { base := 0x10010, count := 4, stride := 0x4000 },
  { base := 0x10020, count := 4, stride := 0x4000 },
  { base := 0x10024, count := 4, stride := 0x4000 },
  { base := 0x10028, count := 4, stride := 0x4000 },
  { base := 0x1002C, count := 4, stride := 0x4000 },
  { base := 0x10030, count := 4, stride := 0x4000 },
  { base := 0x10034, count := 4, stride := 0x4000 },
  { base := 0x10100, count := 4, stride := 0x4000 },
  { base := 0x10104, count := 4, stride := 0x4000 },
  { base := 0x10108, count := 4, stride := 0x4000 },
  { base := 0x1010C, count := 4, stride := 0x4000 },
  { base := 0x10110, count := 4, stride := 0x4000 },
  { base := 0x10114, count := 4, stride := 0x4000 }]

def specsWhisk : List RegSpec := [
  { base := 0x20000, reset := 0x4001, ilrw := 0x1FF01 },
  { base := 0x20004, reset := 0x14FF, il := 0xFFFF, st := 0xFFFF },
  { base := 0x20008, reset := 0x1F, il := 0xFFFF, st := 0xFFFF },
  { base := 0x2000C, rw := 0xFFFF },
  { base := 0x20100, count := 4, stride := 0x40 },
  { base := 0x20104, count := 4, stride := 0x40 },
  { base := 0x20108, count := 4, stride := 0x40 },
  { base := 0x2010C, count := 4, stride := 0x40 },
  { base := 0x20110, count := 4, stride := 0x40 },
  { base := 0x20114, count := 4, stride := 0x40 },
  { base := 0x20400, count2 := 256 }]

def specsHive : List RegSpec := [
  { base := 0x30000, reset := 0x40008, il := 0x3F007F, st := 0x3F007F },
  { base := 0x30004, il := 0xFFFFFF, st := 0xFFFFFF },
  { base := 0x30008, il := 0xFFFFFF, st := 0xFFFFFF },
  { base := 0x3000C },
  { base := 0x30010, reset := 0x10, ilrw := 0xF0, il := 0x7, st := 0x7 },
  { base := 0x30014, reset := 0x40, ilrw := 0x3FF },
  { base := 0x30018, reset := 0x3CF, il := 0x3FF, st := 0x3FF },
  { base := 0x3001C, reset := 0x80000000 },
  { base := 0x30020, st := 0xFFFFFFFF },
  { base := 0x30024 },
  { base := 0x30028 },
  { base := 0x3002C },
  { base := 0x30040, st := 0xFFFFFFFF },
  { base := 0x30044, st := 0xFFFFFFFF },
  { base := 0x30048, st := 0xFFFFFFFF },
  { base := 0x3004C },
  { base := 0x30050 },
  { base := 0x30054 },
  { base := 0x30100, count := 5, stride := 0x20, il := 0xFFFFFFFF, st := 0xFFFFFFFF },
  { base := 0x30104, count := 5, stride := 0x20, il := 0xFFFFFFFF, st := 0xFFFFFFFF },
  { base := 0x30108, count := 5, stride := 0x20 },
  { base := 0x3010C, count := 5, stride := 0x20 },
  { base := 0x30110, count := 5, stride := 0x20 },
  { base := 0x30114, count := 5, stride := 0x20 },
  { base := 0x30118, count := 5, stride := 0x20 }]

def specsClu : List RegSpec := [
  { base := 0x40000, count := 32, stride := 0x800, ilrw := 0x1 },
  { base := 0x40004, count := 32, stride := 0x800 },
  { base := 0x40008, count := 32, stride := 0x800, reset := 0x1000, ilrw := 0xFFFFF },
  { base := 0x4000C, count := 32, stride := 0x800, rw := 0xC0003FFF },
  { base := 0x40010, count := 32, stride := 0x800, reset := 0x20, il := 0xFF, st := 0xFF },
  { base := 0x40020, count := 32, stride := 0x800 },
  { base := 0x40024, count := 32, stride := 0x800 },
  { base := 0x40028, count := 32, stride := 0x800 },
  { base := 0x4002C, count := 32, stride := 0x800 },
  { base := 0x40030, count := 32, stride := 0x800 },
  { base := 0x40034, count := 32, stride := 0x800 },
  { base := 0x40038, count := 32, stride := 0x800 },
  { base := 0x4003C, count := 32, stride := 0x800 },
  { base := 0x40040, count := 32, stride := 0x800 },
  { base := 0x40044, count := 32, stride := 0x800 },
  { base := 0x40060, count := 32, stride := 0x800, st := 0x7F3F },
  { base := 0x40064, count := 32, stride := 0x800, rw := 0x3F, st := 0x3F },
  { base := 0x40068, count := 32, stride := 0x800, st := 0xFFFFFFFF },
  { base := 0x40400, count := 32, stride := 0x800, count2 := 256, st := 0xFFFFFFFF }]

def specsLadle : List RegSpec := [
  { base := 0x50000, reset := 0x2000, ilrw := 0x7F01 },
  { base := 0x50004 },
  { base := 0x50008, st := 0xFFFFFFFF },
  { base := 0x50020, count2 := 8, st := 0xFFFFFFFF },
  { base := 0x50100, count := 4, stride := 0x40 },
  { base := 0x50104, count := 4, stride := 0x40 },
  { base := 0x50108, count := 4, stride := 0x40 },
  { base := 0x5010C, count := 4, stride := 0x40 },
  { base := 0x50110, count := 4, stride := 0x40 },
  { base := 0x50114, count := 4, stride := 0x40 },
  { base := 0x50118, count := 4, stride := 0x40 },
  { base := 0x5011C, count := 4, stride := 0x40 },
  { base := 0x50400, count2 := 256, st := 0xFFFFFFFF }]

def specsLink : List RegSpec := [
  { base := 0x60000, count := 64, stride := 0x400, reset := 0x40000000, il := 0xFF8FFF00, st := 0xFF8FFF00 },
  { base := 0x60004, count := 64, stride := 0x400 },
  { base := 0x60008, count := 64, stride := 0x400 },
  { base := 0x6000C, count := 64, stride := 0x400, reset := 0xA0C08020, il := 0xFFFFFFFF, st := 0xFFFFFFFF },
  { base := 0x60010, count := 64, stride := 0x400, reset := 0xA140802, ilrw := 0xFFFF0FFF, st := 0xFFFF0FFF },
  { base := 0x60014, count := 64, stride := 0x400, reset := 0x640002, ilrw := 0xFFFFFFFF, st := 0xFFFFFFFF },
  { base := 0x60018, count := 64, stride := 0x400, reset := 0x40, ilrw := 0x3FF, st := 0x3FF },
  { base := 0x6001C, count := 64, stride := 0x400 },
  { base := 0x60020, count := 64, stride := 0x400 },
  { base := 0x60040, count := 64, stride := 0x400, count2 := 16, st := 0xFFFFFFFF },
  { base := 0x60300, count := 64, stride := 0x400, rw := 0xFFF, st := 0xFFF },
  { base := 0x60304, count := 64, stride := 0x400, reset := 0xFFFFFFFF, ilrw := 0xFFFFFFFF, st := 0xFFFFFFFF }]

def specsSwarm : List RegSpec := [
  { base := 0x70000, reset := 0x8, ilrw := 0x1F },
  { base := 0x70004 },
  { base := 0x70040, count2 := 15, reset := 0x1000000, ilrw := 0xFFCFF1FF },
  { base := 0x7007C, reset := 0x61000000 },
  { base := 0x70100, reset := 0x6A4, ilrw := 0xFC00FFFF },
  { base := 0x70104, reset := 0x14, ilrw := 0xFFFF },
  { base := 0x70108 },
  { base := 0x7010C },
  { base := 0x70110 },
  { base := 0x70114 },
  { base := 0x70200 },
  { base := 0x70204 },
  { base := 0x70208, st := 0xFFFFFFFF },
  { base := 0x7020C },
  { base := 0x70210 },
  { base := 0x70214, st := 0xFFFFFFFF },
  { base := 0x70218, st := 0xFFFFFFFF },
  { base := 0x7021C, st := 0xFFFFFFFF },
  { base := 0x70220, st := 0xFFFFFFFF },
  { base := 0x70224, st := 0xFFFFFFFF },
  { base := 0x70228, st := 0xFFFFFFFF },
  { base := 0x7022C, st := 0xFFFFFFFF },
  { base := 0x70230, st := 0xFFFFFFFF },
  { base := 0x70234 }]

def specsRoster : List RegSpec := [
  { base := 0x80000, reset := 0x1, ilrw := 0x1, il := 0x2, st := 0x2 },
  { base := 0x80004, il := 0xFFF, st := 0xFFF },
  { base := 0x80008 },
  { base := 0x8000C },
  { base := 0x80010, reset := 0x14, ilrw := 0xFFF, st := 0xFFF },
  { base := 0x80014, reset := 0x40, ilrw := 0x3FF, st := 0x3FF },
  { base := 0x80018, reset := 0x20200044, ilrw := 0xFF3F9FDF, st := 0xFF3F9FDF },
  { base := 0x8001C, reset := 0x10, ilrw := 0xFF, st := 0xFF },
  { base := 0x80020, reset := 0xC80420, ilrw := 0xFFFFFFFF, st := 0xFFFFFFFF },
  { base := 0x80024, st := 0xE000000 },
  { base := 0x80028 },
  { base := 0x80030, st := 0xFFFFFFFF },
  { base := 0x80034, st := 0xFFFFFFFF },
  { base := 0x80038, st := 0xFFFFFFFF },
  { base := 0x8003C, st := 0xFFFFFFFF },
  { base := 0x80040, st := 0xFFFFFFFF },
  { base := 0x80044, st := 0xFFFFFFFF },
  { base := 0x80080, rw := 0x1FF },
  { base := 0x80100, count2 := 32 }]

def specsRas : List RegSpec := [
  { base := 0x90000, reset := 0x800, ilrw := 0xFF01, st := 0xFF01 },
  { base := 0x90004, st := 0x80000003 },
  { base := 0x90008, w1c := 0x800000, st := 0xFFFF3FFF },
  { base := 0x9000C, st := 0xFFFFFFFF },
  { base := 0x90010, st := 0xFFFF3FFF },
  { base := 0x90014, st := 0xFFFFFFFF },
  { base := 0x90040, st := 0xFFFFFFFF },
  { base := 0x90044, st := 0xFFFFFFFF },
  { base := 0x90048, st := 0xFFFFFFFF },
  { base := 0x9004C, st := 0xFFFFFFFF },
  { base := 0x90050, st := 0xFFFFFFFF },
  { base := 0x90054, st := 0xFFFFFFFF },
  { base := 0x90058, st := 0xFFFFFFFF },
  { base := 0x9005C, st := 0xFFFFFFFF },
  { base := 0x90060, st := 0xFFFFFFFF },
  { base := 0x90064, st := 0xFFFFFFFF },
  { base := 0x90068, st := 0xFFFFFFFF },
  { base := 0x90080, count2 := 4, st := 0xFFFFFFFF }]

def specsSec : List RegSpec := [
  { base := 0xA0000, reset := 0x1, st := 0x3 },
  { base := 0xA0004, reset := 0x2, st := 0x3 },
  { base := 0xA0008, st := 0xFFFF3FFF },
  { base := 0xA0040, st := 0xFFFFFFFF },
  { base := 0xA0044, st := 0xFFFFFFFF },
  { base := 0xA0048, st := 0xFFFFFFFF },
  { base := 0xA004C, st := 0xFFFFFFFF }]

def specsTel : List RegSpec := [
  { base := 0xB0000, rw := 0x1, st := 0x1 },
  { base := 0xB0004, st := 0xFFFFFFFF },
  { base := 0xB0008, st := 0xFFFFFFFF },
  { base := 0xB000C, st := 0xFFFFFFFF },
  { base := 0xB0040, count2 := 19, st := 0xFFFFFFFF }]

def specsDbg : List RegSpec := [
  { base := 0xF0000, rw := 0xC0000000, st := 0xC0000000 },
  { base := 0xF0004, st := 0x3 },
  { base := 0xF0008, rw := 0xFFFFFFE0, st := 0xFFFFFFE0 },
  { base := 0xF000C, rw := 0x7, st := 0x7 },
  { base := 0xF0010, rw := 0x1FF, st := 0x1FF },
  { base := 0xF0020, count2 := 8, rw := 0xFFFFFFFF, st := 0xFFFFFFFF }]

/-- The rows of the block that an offset lies in (R486). -/
def blockSpecs (off : Nat) : List RegSpec :=
  if off < 0x1000 then specsEid
  else if off < 0x2000 then specsBoot
  else if off < 0x4000 then specsClk
  else if off < 0x6000 then specsJob
  else if off < 0x10000 then []
  else match off / 0x10000 with
    | 1 => specsSieve
    | 2 => specsWhisk
    | 3 => specsHive
    | 4 => specsClu
    | 5 => specsLadle
    | 6 => specsLink
    | 7 => specsSwarm
    | 8 => specsRoster
    | 9 => specsRas
    | 10 => specsSec
    | 11 => specsTel
    | 15 => specsDbg
    | _ => []

/-- Does a row of the index name this offset? -/
def RegSpec.covers (r : RegSpec) (off : Nat) : Bool :=
  decide (r.base ≤ off) &&
    (let d := off - r.base
     let i := d / r.stride
     let e := d % r.stride
     decide (i < r.count) && decide (e % r.stride2 = 0) && decide (e / r.stride2 < r.count2))

/-- The register at a window offset; none where the offset holds no register (R6, R486). -/
def regSpec (off : Nat) : Option RegSpec := (blockSpecs off).find? (fun r => r.covers off)

/-- R487: the ranges that belong to absent instances on Erpinel-24. -/
def absentOn24 (off : Nat) : Bool :=
  decide (0x1C000 ≤ off ∧ off ≤ 0x1FFFF) || decide (0x201C0 ≤ off ∧ off ≤ 0x201D7) ||
  decide (0x4C000 ≤ off ∧ off ≤ 0x4FFFF) || decide (0x501C0 ≤ off ∧ off ≤ 0x501DF) ||
  decide (0x6C000 ≤ off ∧ off ≤ 0x6FFFF) || decide (0x9008C ≤ off ∧ off ≤ 0x9008F)

/-- R36, R486: the blocks that answer before the fast clocks run. -/
def answersEarly (off : Nat) : Bool :=
  decide (off < 0x4000) || decide (0x5000 ≤ off ∧ off < 0x6000) || decide (0x90000 ≤ off ∧ off < 0xB0000)

/-- The DBG block (R495). -/
def inDbg (off : Nat) : Bool := decide (0xF0000 ≤ off)

/-- R301: the shared route-table port appears in every LINK instance; one home, instance 0. -/
def regHome (off : Nat) : Nat :=
  if 0x60000 ≤ off ∧ off < 0x70000 ∧ (off % 0x400 = 0x300 ∨ off % 0x400 = 0x304)
  then 0x60000 + off % 0x400 else off

/-- The 64-bit pairs (R487), by their _LO offset. -/
def pairLos : List Nat :=
  [0x10, 0x3000, 0x3008, 0x4000, 0x4008, 0x4060, 0x4068, 0x70110, 0xB0008, 0xB0048, 0xB0050, 0xB0058,
   0xB0060, 0xB0068, 0xB0070, 0xB0078, 0xF0008]

def isPairLo (off : Nat) : Bool := pairLos.contains off

def isPairHi (off : Nat) : Bool := decide (4 ≤ off) && pairLos.contains (off - 4)

end Sys2Proof.Machine
end

