-- ==== Sys2Proof/Machine/State.lean ====
section
/-! DEFINITION. Machine/State.lean: the whole state of the engine as plain data, why a step can stop, and the state
right after the release of erp_rst_n. -/

namespace Sys2Proof.Machine

/-- Why the machine stops. -/
inductive Fault where
  /-- Raised by a command whose operand names a host port, die port, region, cluster, link or pool that the part does
  not have (R1, R2, R53, R57): no such event exists at its boundary. Safe: the machine stops where the hardware has
  no behaviour at all. -/
  | absentInstance
  deriving DecidableEq, Repr

/-- Why a command has no meaning. -/
inductive Refusal where
  /-- Raised by an arm of `exec` whose command is not modelled yet, by the command's mnemonic. Safe. -/
  | notModelled (mnemonic : String)
  deriving DecidableEq, Repr

/-- The engine. -/
structure State where
  chip : Chip
  fuses : Fuses
  /-- the control window's registers (R486), by window offset; an unlisted register holds its reset value -/
  regs : SMap Word
  /-- values still in force of fields whose host write takes effect at the next step boundary (R490) -/
  effOld : SMap (Option Word)
  /-- the words in force until a link's next flit slot (R302) or the next gap (R458) -/
  slotOld : SMap (Option Word)
  /-- the read capture and the held write of each 64-bit pair (R9), by _LO offset -/
  pairCap : SMap (Option Word)
  pairHeld : SMap (Option Word)
  /-- what the last control-window read returned -/
  rdata : Word
  /-- the route table (R286), by collective member id -/
  routes : SMap Word
  boot : Boot
  keep : Keepers
  timers : List Timer
  mbox : List MboxReq
  mboxTag : Nat
  hive : Hive
  /-- the Hive's channels and requester ports (R186 to R190) -/
  bus : Bus
  job : Job
  step : StepSt
  ports : List DiePort
  sieves : List SieveSt
  clus : List Cluster
  tiles : TileTbl
  swarm : Swarm
  bar : Barrier
  roster : Roster
  links : List Link
  /-- packets held because their destination has no live candidate (R287) -/
  limbo : List TxPkt
  power : Power
  tel : Tel
  /-- damaged words in the engine's queues (R462, R463) -/
  upset : List Upset
  /-- control errors detected by the running command, first detected last (R467) -/
  errs : List CtrlErr
  /-- everything the engine has sent, newest first -/
  outs : List Out
  /-- the model's own counter: which free value the next open choice takes -/
  freeCtr : Nat
  /-- commands waiting, first in, first out -/
  pending : List Instr
  /-- timers found expired in the present AON tick while commands of the tick still waited: they compare at its end (R455) -/
  expired : List Instr
  deriving DecidableEq, Repr

/-! ### Reset values -/

/-- The word a register holds after reset, where it depends on the grade or on fuses (R1, R89, R90, R458, R492). -/
def fusedReset (f : Fuses) (off : Nat) : Option Word :=
  let lat := (indicesFrom (fun l : List Nat => !l.isEmpty) 0 (f.spare.take (if f.e24 then 3 else 4))).foldl
    (fun a i => a + 2 ^ i) 0
  if off = R.eidPart then some (if f.e24 then 0xE3A2#32 else 0xE3A1#32)
  else if off = R.eidStep then some (at_ 0 (f.step % 256))
  else if off = R.eidGrade then some ((if f.e24 then 0x03183000#32 else 0x04204000#32) ||| at_ 0 lat)
  else if off = R.eidSerialLo then some (BitVec.ofNat 32 f.serial)
  else if off = R.eidSerialHi then some (BitVec.ofNat 32 (f.serial / 2 ^ 32))
  else if off = R.clkVset then some (at_ 0 (f.e0Mv % 1024))
  else if 0x10000 ≤ off ∧ off < 0x20000 ∧ off % 0x4000 = 0xC then
    let rows := f.spare.getD ((off - 0x10000) / 0x4000) []
    some (at_ 0 rows.length ||| at_ 8 (b2n (!rows.isEmpty)))
  else if 0x10000 ≤ off ∧ off < 0x20000 ∧ off % 0x4000 = 0x10 then
    let rows := f.spare.getD ((off - 0x10000) / 0x4000) []
    some ((rows.take 4).zipIdx.foldl (fun w p => w ||| at_ (8 * p.2) (p.1 % 256)) 0)
  else none

/-- The reset word of the register at an offset (R8, R493's index). -/
def regReset (f : Fuses) (off : Nat) : Word :=
  match fusedReset f off with
  | some w => w
  | none => match regSpec off with
    | some r => BitVec.ofNat 32 r.reset
    | none => 0

/-- An unlisted route names no link (R286: 0xFFFF_FFFF in every entry). -/
def routeReset (_ : Nat) : Word := 0xFFFFFFFF#32

def Fuses.reset : Fuses := ⟨false, 0xA0, 0, [[], [], [], []], 650⟩

def Chip.reset : Chip :=
  { inReset := false, now := 0, fastOn := false, failed := false, syncLast := none, ledOk := false, ledRemove := false,
    blinkAt := 0, lifeReported := false, flashDriven := false, drainLatched := false, accE0 := 0, accE1 := 0, accE2 := 0 }

def Boot.reset : Boot :=
  { clk := 0, slot := 0, reading := false, held := none, keyHash := none, minSvn := 0, accepted := none, prepAt := none }

def Keepers.reset : Keepers := ⟨List.replicate 9 [], false, 0⟩

def Layout.reset : Layout := ⟨8, 4, 0, [0, 0, 0, 0, 0]⟩

/-- The Hive while its first zeroisation pass is still to run (R52, R193: BUSY resets to 1). -/
def Hive.reset : Hive :=
  { mem := [], layout := Layout.reset, heads := [], rr := [0, 0, 0, 0, 0], slotHead := 0xFFFFFFFF, waiting := [],
    ownTaken := [0, 0, 0, 0, 0], ownSlots := 0, peak := [0, 0, 0, 0, 0], upsets := [], zeroReason := 0 }

def Bus.reset : Bus :=
  { chans := [], backlog := [], used := [], refreshed := [], exitAt := none, dbgGo := none, dbgWait := [] }

def Job.reset : Job :=
  { ring := 0, ask := 0, log2 := 0, modelAt := 0, saveAt := 0, loadKind := 0, model := none, reads := [], held := none,
    loadAt := 0, endSeq := none, yield := false, endReason := 0, after := .nothing,
    savedEpoch := 0, savedLqf := none, anyAccepted := false, policy := (0, 8) }

def AskCnt.reset : AskCnt :=
  { tokens := 0, copies := 0, remote := 0, spills := 0, drops := 0, lost := 0, poisoned := 0, poisonRow := false, thm := 0, nans := 0,
    sat := 0, overb := 0, joins := 0, leaves := 0, streams := 0, losses := [], lossFlag := false, stagedFlag := false,
    deadline := false }

def StepSt.reset : StepSt :=
  { inProg := false, ended := false, ordered := false, fleet := false, buckets := [], tag0 := 0, tag1 := 0,
    acceptedAt := 0, endedAt := 0, layers := [], flights := [], done := [], digests := [], deferred := [], combQ := [[], [], [], []], torn := [],
    tornEarly := [], tornRemoved := [], tokOf := [], cnt := AskCnt.reset }

def DiePort.reset : DiePort :=
  { hs := [], res := [], swm := [], owed := [0, 0, 0], turn := [], held := [0, 0, 0], tiles := [], mans := [],
    passed := [[], [], [], []] }

/-- An array that has done no work yet is clock-gated: DESIGN CHOICE (assumption row 96), no gap of R86 runs before its first work,
whatever EN holds. -/
def SieveSt.reset : SieveSt :=
  { cur := none, shape := 0, base := 0, tile := 0, fed := 0, active := none, shadow := none, acc := [], ready := [],
    ramp := 0, rampStep := 0, dummyRows := 0, store := [], csums := [], pass := 0, nextLayer := none,
    streamed := false, bad := [], tp := [] }

def Cluster.reset : Cluster := ⟨[], [], 0, 0⟩

def TileTbl.reset : TileTbl := ⟨[], []⟩

def Swarm.reset : Swarm := ⟨[], [], [], [], []⟩

def Barrier.reset : Barrier := ⟨false, 0, [], [], [], false, [], false, none, false, none⟩

def Roster.reset : Roster :=
  { demand := [], rev := none, startHeld := none, startDue := false, joined := false, reqs := [], joiners := [], departs := [], lost := [],
    seen := [], unreach := [], asking := false, askDue := false, ackStep := none, ackEpoch := 0, got := 0, total := 0,
    joinFailed := false, isolated := false, cutOff := false }

def Link.reset : Link :=
  { train := { sub := 0, lanesAt := 0, hold := none, idleReq := true, lpReq := false, resume := false,
               ackSent := false, ackGot := false, peerResume := false, peerX := 0, peerPlaces := 0, peerXbase := 0, helloAt := 0,
               echoAt := 0, echoSent := 0, echoes := [], recoverAt := 0 }
    tx := { seq := 0, retry := [], resend := 0, episodes := 0, oldestAt := 0, credits := [0, 0, 0, 0],
            lastCr := [0, 0, 0, 0], q := [[], [], [], []], flight := [], wait := [0, 0, 0, 0], last23 := 3,
            lastRelay := [false, false, false, false], stallAt := [none, none, none, none], retained := [],
            ctrlDue := false, nakDue := false, aliveDue := false, lastCtrl := 0, quiet := false, trainQ := [] }
    rx := { x := 0, freed := [0, 0, 0, 0], q := [[], [], [], []], nakAt := none, lastRx := 0 }
    keys := { peer := none, tx := none, txNext := none, rx := [], peerKv := false, peerKg := 0, xseq := 0, rxXseq := 0, rxKg := none, adv := false } }

def Power.reset : Power :=
  { gap := none, plan := 0, wakeAt := none, hist := [], bars := [], idleAt := none, jobIdleAt := none, wakeFrom := 0,
    wakeT0 := 0, wakeHeld := none, timed := none, woke := false }

def Tel.reset : Tel := ⟨0, 0, 0, 0, 0, 0, 0, 0, 0, 0, 0, 0, false⟩

/-- The engine right after a release of erp_rst_n, with the given fuses (R8, R51, R409). -/
def State.released (f : Fuses) : State :=
  { chip := Chip.reset, fuses := f, regs := [], effOld := [], slotOld := [], pairCap := [], pairHeld := [], rdata := 0, routes := [],
    boot := Boot.reset, keep := Keepers.reset, timers := List.replicate 32 ⟨false, 0, 0⟩, mbox := [], mboxTag := 0,
    hive := Hive.reset, bus := Bus.reset, job := Job.reset, step := StepSt.reset, ports := List.replicate 4 DiePort.reset,
    sieves := List.replicate 4 SieveSt.reset, clus := List.replicate 32 Cluster.reset,
    tiles := TileTbl.reset, swarm := Swarm.reset, bar := Barrier.reset, roster := Roster.reset,
    links := List.replicate 64 Link.reset, limbo := [], power := Power.reset, tel := Tel.reset, upset := [],
    errs := [], outs := [], freeCtr := 0,
    pending := [], expired := [] }

/-- The machine right after reset. -/
def State.reset : State := State.released Fuses.reset

end Sys2Proof.Machine
end

