-- ==== Sys2Proof/Machine/Regs.lean ====
section
/-! DEFINITION. Machine/Regs.lean: the named operations over the register file: fields, counters, values that take
effect later (R490), the timer bank (R453), events (R39, R40) and what a control-window read shows. -/

namespace Sys2Proof.Machine

/-! ### Words, fields and counters -/

/-- The stored word of a register. -/
def State.word (s : State) (off : Nat) : Word := SMap.get (regReset s.fuses) s.regs (regHome off)

def State.setWord (s : State) (off : Nat) (w : Word) : State :=
  { s with regs := SMap.set (regReset s.fuses) s.regs (regHome off) w }

def State.get (s : State) (f : Fld) : Nat := fld (s.word f.off) f.hi f.lo

def State.put (s : State) (f : Fld) (v : Nat) : State := s.setWord f.off (setFld (s.word f.off) f.hi f.lo v)

/-- A one-bit field as a truth value. -/
def State.flag (s : State) (f : Fld) : Bool := s.get f != 0

/-- A 32-bit counter advances by `n` and wraps. -/
def State.inc (s : State) (off n : Nat) : State := s.setWord off (s.word off + BitVec.ofNat 32 n)

/-- A field advances by `n` modulo its width. -/
def State.incF (s : State) (f : Fld) (n : Nat) : State := s.put f (s.get f + n)

/-- A whole register as a number. -/
def State.num (s : State) (off : Nat) : Nat := (s.word off).toNat

def State.setNum (s : State) (off v : Nat) : State := s.setWord off (BitVec.ofNat 32 v)

/-- A 64-bit pair (R9) as a number. -/
def State.pair (s : State) (lo : Nat) : Nat := s.num lo + 2 ^ 32 * s.num (lo + 4)

def State.setPair (s : State) (lo v : Nat) : State := (s.setNum lo (v % 2 ^ 32)).setNum (lo + 4) (v / 2 ^ 32)

/-! ### Instances (R2) -/

def State.nRegions (s : State) : Nat := if s.fuses.e24 then 3 else 4
def State.nClusters (s : State) : Nat := 8 * s.nRegions
def State.nLinks (s : State) : Nat := 2 * s.nClusters

/-! ### Job state codes (R389) -/

abbrev jsIdle : Nat := 0
abbrev jsLoading : Nat := 1
abbrev jsRunning : Nat := 2
abbrev jsEnding : Nat := 3
abbrev jsSaving : Nat := 4
abbrev jsZeroising : Nat := 5
abbrev jsFaulted : Nat := 6

def State.jobState (s : State) : Nat := s.get F.jobStatusState

/-- RUNNING, or ENDING, in which the job's steps go on (R389, R395). -/
def State.stepping (s : State) : Bool := s.jobState == jsRunning || s.jobState == jsEnding

/-! ### Values that take effect at the next step boundary (R490) -/

/-- The word in force. -/
def State.effWord (s : State) (off : Nat) : Word := ((SMap.get noneAt s.effOld off).getD (s.word off))

/-- The field in force. -/
def State.eff (s : State) (f : Fld) : Nat := fld (s.effWord f.off) f.hi f.lo

/-- Keep the present word in force until the boundary; the first old value stands (R490). -/
def State.defer (s : State) (off : Nat) : State :=
  match SMap.get noneAt s.effOld off with
  | some _ => s
  | none => { s with effOld := SMap.set noneAt s.effOld off (some (s.word off)) }

/-- SIEVE_CTL: what is written waits for the next (layer, half) of its Sieve (R102). -/
def sieveCtlReg (off : Nat) : Bool := decide (0x10000 ≤ off ∧ off < 0x20000) && off % 0x4000 == 0

/-- Registers whose chapters say that what is written waits for a step boundary, or the next step (R194, R330, R370, R407,
R482). -/
def boundaryReg (off : Nat) : Bool :=
  ([R.hiveClass, R.hiveArb, R.ladleCtl, R.swarmCtl, R.swarmBarCtl, R.stepPollNs, R.stepDeadlineUs,
    R.rasFaultPolicy] : List Nat).contains off || decide (R.swarmGroup 0 ≤ off ∧ off < R.swarmGroup 15)

/-- Registers whose chapters name a time at which their value is taken, which is when the model reads them: a packet's first
flit (R229), a snapshot, an interval, a commit or a LEAVE (R258), an Ask (R407), an arming (R453), the start of a job (R372),
the choice of a route (R302). -/
def ownTimeReg (off : Nat) : Bool :=
  ([R.rosterInterval, R.rosterLeadSteps, R.rosterLimits, R.rosterQuota, R.jobIdleS, R.stepRingSlots] : List Nat).contains off ||
    (decide (0x40000 ≤ off ∧ off < 0x50000) && off % 0x800 == 8) || decide (R.tmrCfg 0 ≤ off ∧ off < R.tmrCfg 0 + 0x80) ||
    regHome off == R.linkRtData 0

/-- The written values that wait for a step boundary take effect; one of SIEVE_CTL waits on (R102). -/
def State.settleRegs (s : State) : State := { s with effOld := s.effOld.filter (fun p => sieveCtlReg p.1) }

/-- The written value of one register takes effect. -/
def State.settleReg (s : State) (off : Nat) : State := { s with effOld := SMap.set noneAt s.effOld off none }

/-! ### Values that wait for a flit slot or a gap (R302, R458) -/

/-- A link's timers and its arbiter's limit, whose written values wait for its next flit slot. -/
def slotReg (off : Nat) : Bool :=
  decide (0x60000 ≤ off ∧ off < 0x70000) && (off % 0x400 == 0x10 || off % 0x400 == 0x14 || off % 0x400 == 0x18)

/-- CLK_PWR_CTL and CLK_WAKE, whose written values wait for the next gap. -/
def gapReg (off : Nat) : Bool := off == R.clkPwrCtl || off == R.clkWake

/-- A field of such a register as it is in force. -/
def State.slotGet (s : State) (f : Fld) : Nat := fld ((SMap.get noneAt s.slotOld f.off).getD (s.word f.off)) f.hi f.lo

/-- Keep the present word in force until then; the first old value stands. -/
def State.deferSlot (s : State) (off : Nat) : State :=
  match SMap.get noneAt s.slotOld off with
  | some _ => s
  | none => { s with slotOld := SMap.set noneAt s.slotOld off (some (s.word off)) }

/-- A flit slot of link n: what was written takes effect. -/
def State.settleSlot (s : State) (n : Nat) : State :=
  { s with slotOld := s.slotOld.filter (fun p => p.1 / 0x400 != R.linkCtl n / 0x400) }

/-- The start of a gap: what was written takes effect. -/
def State.settleGap (s : State) : State := { s with slotOld := s.slotOld.filter (fun p => !gapReg p.1) }

/-! ### Keepers (R496) -/

/-- A Keeper present on the grade. -/
def State.hasKeeper (s : State) (k : Nat) : Bool := decide (k < 2 * s.nRegions) || k == 8

/-- Keeper k executes: DBG_KEEPER.HALT does not hold it; bit 8 is the Head Keeper. -/
def State.keeperOn (s : State) (k : Nat) : Bool := !(s.get F.dbgKeeperHalt).testBit k

/-- No Keeper of the grade is halted: the roster's work, which the spec gives to the Keepers together, goes on (R2, assumption row
79). -/
def State.keepersOn (s : State) : Bool := (List.range 9).all (fun k => !s.hasKeeper k || s.keeperOn k)

/-! ### Outputs, errors, free values -/

def State.emit (s : State) (o : Out) : State := { s with outs := o :: s.outs }

/-- A control error is detected (R464). -/
def State.err (s : State) (src unit : Nat) (stream : Option Nat) : State :=
  { s with errs := ⟨src, unit, stream⟩ :: s.errs }

/-- A damaged word is met, once: whether it was there, and the state without it (R462, R463). -/
def State.meet (s : State) (u : Upset) : Bool × State :=
  (s.upset.contains u, if s.upset.contains u then { s with upset := s.upset.erase u } else s)

def srcParity : Nat := 0x12

/-- A parity-checked word fails on read: counted, and a control error of its cluster (R462, R474). -/
def State.parityErr (s : State) (cluster : Nat) : State := (s.inc R.rasParityCnt 1).err srcParity cluster none

/-- Read a parity-checked queue entry: a damaged one is discarded and nothing in it is acted on. R474 gives PARITY the index of a
cluster: one of a die port or Ladle names the first cluster of its region, and capacity-pass state, which is of no cluster, 0
(assumption row 115). -/
def State.checked (s : State) (u : Upset) (cluster : Nat) (drop act : State → State) : State :=
  match s.meet u with
  | (true, s1) => (drop s1).parityErr cluster
  | (false, _) => act s

/-- Take the next fresh selector of a free value. -/
def State.tick (s : State) : Nat × State := (s.freeCtr, { s with freeCtr := s.freeCtr + 1 })

/-! ### Host events (R39, R40) -/

abbrev evAsk : Nat := 0
abbrev evDone : Nat := 1
abbrev evFault : Nat := 2
abbrev evDeadline : Nat := 3
abbrev evStage : Nat := 4
abbrev evThermal : Nat := 5
abbrev evDrain : Nat := 6

/-- The host port that events reach: the job owner, else BOOT_EVT_PORT. -/
def State.evtPort (s : State) : Nat :=
  if s.flag F.jobOwnerValid then s.get F.jobOwnerPort else s.get F.bootEvtPortPort

/-- Raise an event toward a port: one interrupt per transition of an enabled bit from 0 to 1 (R40). -/
def State.raiseTo (s : State) (port b : Nat) : State :=
  let old := s.word R.jobEvt
  let s1 := s.setWord R.jobEvt (old ||| at_ b 1)
  if !bit old b && bit (s.word R.jobEvtEn) b then s1.emit (.irq port b) else s1

def State.raise (s : State) (b : Nat) : State := s.raiseTo s.evtPort b

/-! ### The timer bank (R451 to R453) -/

abbrev tmPoll : Nat := 0x01
abbrev tmWake : Nat := 0x02
abbrev tmDeadline : Nat := 0x03
abbrev tmBar : Nat := 0x04
abbrev tmJoin : Nat := 0x05
abbrev tmRev : Nat := 0x06
abbrev tmIdle : Nat := 0x07
abbrev tmKeeper : Nat := 0x10
abbrev tmTel : Nat := 0x11

/-- The timer bound to a feature. -/
def State.timerOf (s : State) (feat : Nat) : Option Nat :=
  (List.range 32).find? (fun t => s.get (F.tmrCfgFeature t) == feat)

/-- Nanoseconds of a UNIT code. -/
def unitNs (u : Nat) : Nat := if u = 0 then 10 else if u = 1 then 1000 else if u = 2 then 1000000 else 1000000000

def Timer.off : Timer := ⟨false, 0, 0⟩

def State.timer (s : State) (t : Nat) : Timer := s.timers.getD t Timer.off

def State.setTimer (s : State) (t : Nat) (x : Timer) : State := { s with timers := updAt s.timers t (fun _ => x) }

/-- Arm a feature's timer from a start time, with a duration in its unit. -/
def State.armFrom (s : State) (feat t0 d : Nat) : State :=
  match s.timerOf feat with
  | some t => s.setTimer t ⟨true, t0, d⟩
  | none => s

def State.arm (s : State) (feat d : Nat) : State := s.armFrom feat s.chip.now d

def State.disarm (s : State) (feat : Nat) : State :=
  match s.timerOf feat with
  | some t => s.setTimer t Timer.off
  | none => s

/-- Timer t has expired: armed, and TMR_NOW is at least T0 + d × u (R453). -/
def State.timerHit (s : State) (t : Nat) : Bool :=
  let x := s.timer t
  x.armed && decide (x.t0 + x.d * unitNs (s.get (F.tmrCfgUnit t)) ≤ s.chip.now)

def State.due (s : State) (feat : Nat) : Bool :=
  match s.timerOf feat with
  | some t => s.timerHit t
  | none => false

/-- A timer that re-arms with T0 at its previous expiry (R240, R453). -/
def State.rearm (s : State) (feat d : Nat) : State :=
  match s.timerOf feat with
  | some t =>
    let x := s.timer t
    s.setTimer t ⟨true, x.t0 + x.d * unitNs (s.get (F.tmrCfgUnit t)), d⟩
  | none => s

/-- Whole units until expiry; 0 when not armed (R453). -/
def State.remain (s : State) (t : Nat) : Nat :=
  let x := s.timer t
  let u := unitNs (s.get (F.tmrCfgUnit t))
  if x.armed then (x.t0 + x.d * u - s.chip.now) / u else 0

/-- Disarm every one-shot timer (R469). -/
def State.disarmOneShots (s : State) : State :=
  { s with timers := s.timers.zipIdx.map (fun p => if s.flag (F.tmrCfgPeriodic p.2) then p.1 else Timer.off) }

/-! ### Durations that registers give, with the limits of their field tables -/

/-- RECIPE_POLL in units of 10 ns (R407: values below 100 ns act as 100). -/
def State.pollUnits (s : State) : Nat := ceilDiv (max (s.eff F.stepPollNsNs) 100) 10

def State.deadlineUs (s : State) : Nat := max (s.effWord R.stepDeadlineUs).toNat 100

def State.revSeconds (s : State) : Nat := clampNat (s.get F.rosterIntervalSeconds) 1 3600

/-! ### What a control-window read shows -/

/-- LINK_CTL[n] as read: ENC reads 1 outside the OPEN lifecycle state (R292, R480). -/
def State.encOn (s : State) (n : Nat) : Bool := s.get F.secLifecycleState != 0 || s.flag (F.linkCtlEnc n)

/-- The registers whose value is another part of the state. -/
def State.view (s : State) (off : Nat) : Word :=
  let o := regHome off
  if o = R.tmrNowLo then BitVec.ofNat 32 s.chip.now
  else if o = R.tmrNowHi then BitVec.ofNat 32 (s.chip.now / 2 ^ 32)
  else if 0x3100 ≤ o ∧ o < 0x3180 then
    let t := (o - 0x3100) / 4
    setFld (s.word o) 20 20 (b2n (s.timer t).armed)
  else if 0x3200 ≤ o ∧ o < 0x3280 then BitVec.ofNat 32 (s.remain ((o - 0x3200) / 4))
  else if o = R.linkRtData 0 then SMap.get routeReset s.routes (s.get (F.linkRtIdxMember 0))
  else if 0x60000 ≤ o ∧ o < 0x70000 ∧ o % 0x400 = 0 then
    setFld (s.word o) 30 30 (b2n (s.encOn ((o - 0x60000) / 0x400)))
  else s.word o

/-- A read answers: not absent (R487), not before the fast clocks (R36), not the closed DBG block (R495). -/
def State.answers (s : State) (off : Nat) : Bool :=
  !(s.fuses.e24 && absentOn24 off) && (s.chip.fastOn || answersEarly off) &&
    !(inDbg off && s.get F.secLifecycleState != 0)

/-! ### Host writes (R7) -/

/-- The bits of a register that a host write sets: RW, and IL/RW once BOOT_LOCK is set. -/
def State.hostMask (s : State) (r : RegSpec) : Nat := r.rw ||| (if s.flag F.bootLockLock then r.ilrw else 0)

/-- The word that a host write leaves: settable bits take the value, W1C bits written 1 clear, others stay. -/
def State.hostWord (s : State) (r : RegSpec) (off : Nat) (v : Word) : Word :=
  let m := BitVec.ofNat 32 (s.hostMask r)
  ((s.word off &&& ~~~m) ||| (v &&& m)) &&& ~~~(v &&& BitVec.ofNat 32 r.w1c)

/-! ### Partition reset of the registers (R8, R488) -/

/-- Registers without ST that report state which partition reset leaves in place: the power state of the AON domain
and the link layer (R469, R300), and the pool bases, which follow the IL layout (R162). -/
def keptByReset (off : Nat) : Bool :=
  off == R.clkState || decide (0x60000 ≤ off ∧ off < 0x70000) ||
    decide (0x30100 ≤ off ∧ off < 0x301A0 ∧ off % 0x20 = 8)

/-- The bits of a register that partition reset leaves; SELFREF follows the power state (R190, R469). -/
def stickyMask (off : Nat) : Word :=
  if keptByReset off then 0xFFFFFFFF#32
  else if off = R.hiveStatus then 0x200#32 else
  match regSpec off with
  | some r => BitVec.ofNat 32 r.st
  | none => 0xFFFFFFFF#32

/-- Every field not marked ST and not IL returns to its reset value. -/
def State.partitionRegs (s : State) : State :=
  { s with
    regs := (s.regs.map (fun p =>
      let m := stickyMask p.1
      (p.1, (p.2 &&& m) ||| (regReset s.fuses p.1 &&& ~~~m)))).filter (fun p => p.2 != regReset s.fuses p.1)
    effOld := [] }

end Sys2Proof.Machine
end

