-- ==== Sys2Proof/Machine/Bus.lean ====
section
/-! DEFINITION. Machine/Bus.lean: the channels of the Hive (R158, R159): the credits of its requester ports (R186), the
arbiter of each channel (R187), emergency requesters (R188) and refresh (R189). The bytes move with the command that asks
for them; here stands who holds which channel, in F-HIVE cycles of 4 ns (assumption row 97). -/

namespace Sys2Proof.Machine

/-! ### Addresses (R158, R159) -/

def hiveSize : Nat := 2 ^ 35

/-- A[20:9]. -/
def channelOf (addr : Nat) : Nat := addr / 512 % 4096

/-- The layer of a channel. -/
def channelLayer (c : Nat) : Nat := c / 1024

/-- A[24:21]. -/
def bankOf (addr : Nat) : Nat := addr / 2 ^ 21 % 16

/-- A[34:25]. -/
def rowBlockOf (addr : Nat) : Nat := addr / 2 ^ 25 % 1024

/-- F-HIVE cycles at 250 MHz up to a time in ns, and within one AON tick that starts then. -/
def hiveCycle (ns : Nat) : Nat := ns / 4

def tickCycles (ns : Nat) : Nat := hiveCycle (ns + 10) - hiveCycle ns

/-! ### Requesters (R186, R187) -/

/-- Place in the priority order, highest first. -/
def HiveGroup.prio : HiveGroup → Nat
  | .alloc => 0
  | .dieRx => 1
  | .cluRx => 2
  | .ladle => 3
  | .whisk => 4
  | .dieTx => 5
  | .cluTx => 6
  | .sieve => 7
  | .swarm => 8
  | .keeper => 9

/-- The port that a requester's credits belong to, by layer: a cluster's receive and transmit traffic share one. -/
def Burst.key (x : Burst) : Nat :=
  4 * (32 * (if x.grp = .cluTx then HiveGroup.cluRx.prio else x.grp.prio) + x.member) + channelLayer (channelOf x.addr)

def portCredits : Nat := 128

/-- Accesses of 32 B that `n` bytes from `a` make, as bursts within one 512 B block each. -/
def burstsFrom (g : HiveGroup) (m : Nat) (write : Bool) : Nat → Nat → Nat → List Burst
  | 0, _, _ => []
  | fuel + 1, a, n =>
    if n = 0 then []
    else
      let k := min n (512 - a % 512)
      ⟨g, m, a, ceilDiv (a % 32 + k) 32, write, 0⟩ :: burstsFrom g m write fuel (a + k) (n - k)

/-! ### Credits and channels -/

def chanIdle (_ : Nat) : Chan := ⟨[], none, [], 0⟩

def noBursts (_ : Nat) : List Burst := []

def Bus.chan (b : Bus) (c : Nat) : Chan := SMap.get chanIdle b.chans c

def Bus.updChan (b : Bus) (c : Nat) (f : Chan → Chan) : Bus :=
  { b with chans := SMap.set chanIdle b.chans c (f (b.chan c)) }

/-- A burst takes its credits and waits at its channel. -/
def Bus.send (b : Bus) (x : Burst) : Bus :=
  ({ b with used := SMap.set zeroAt b.used x.key (SMap.get zeroAt b.used x.key + x.len) }).updChan (channelOf x.addr)
    (fun c => { c with queue := c.queue ++ [x] })

/-- The port holds a credit for each access of a burst. -/
def Bus.fits (b : Bus) (x : Burst) : Bool := decide (SMap.get zeroAt b.used x.key + x.len ≤ portCredits)

/-- A burst is asked for: it waits at its port while the credits are out, in order. -/
def Bus.request (b : Bus) (x : Burst) : Bus :=
  let q := SMap.get noBursts b.backlog x.key
  if q.isEmpty && b.fits x then b.send x
  else { b with backlog := SMap.set noBursts b.backlog x.key (q ++ [x]) }

/-- Bursts that waited at a port go on as credits come back. -/
def Bus.refill (b : Bus) (k : Nat) : Nat → Bus
  | 0 => b
  | fuel + 1 =>
    match SMap.get noBursts b.backlog k with
    | [] => b
    | x :: r => if b.fits x then (({ b with backlog := SMap.set noBursts b.backlog k r }).send x).refill k fuel else b

/-- One access is done and its credit is back (R186). -/
def Bus.back (b : Bus) (k : Nat) : Bus :=
  ({ b with used := SMap.set zeroAt b.used k (SMap.get zeroAt b.used k - 1) }).refill k
    (SMap.get noBursts b.backlog k).length

/-! ### The arbiter of a channel (R187) -/

/-- Two bursts of one requester. -/
def Burst.sameReq (x y : Burst) : Bool := decide (x.grp = y.grp ∧ x.member = y.member)

/-- The oldest burst of each requester. -/
def headsOf : List Burst → List Burst
  | [] => []
  | x :: r => x :: (headsOf r).filter (fun y => !x.sameReq y)

/-- Round-robin distance of a requester from the last one of its group that was granted. -/
def Chan.distance (c : Chan) (x : Burst) : Nat := (x.member + 31 - SMap.get (fun _ => 31) c.last x.grp.prio) % 32

/-- x goes before y: the longer wait where both are forced, then the priority order, then round-robin. -/
def Chan.wins (c : Chan) (lim : Nat) (x y : Burst) : Bool :=
  let f := fun (z : Burst) => decide (lim ≤ z.waited)
  let order := decide (x.grp.prio < y.grp.prio ∨ (x.grp.prio = y.grp.prio ∧ c.distance x < c.distance y))
  if f x && f y then decide (y.waited < x.waited) || (x.waited == y.waited && order)
  else if f x != f y then f x
  else order

def Chan.pick (c : Chan) (lim : Nat) : Option Burst :=
  match headsOf c.queue with
  | [] => none
  | x :: r => some (r.foldl (fun best y => if c.wins lim y best then y else best) x)

/-- Every requester that is not granted in the cycle has waited one cycle more: its counter stands at its oldest burst. -/
def waitOne : List Burst → List Burst → List Burst
  | _, [] => []
  | seen, x :: r =>
    (if seen.any x.sameReq then x else { x with waited := x.waited + 1 }) :: waitOne (x :: seen) r

/-- Take the oldest burst of a requester out of the queue. -/
def takeBurst (x : Burst) : List Burst → List Burst
  | [] => []
  | y :: r => if x.sameReq y then r else y :: takeBurst x r

/-- One cycle of a channel: the emergency use goes on, or the holder makes its next access, or a burst is granted and makes
its first. Answers the port whose access was made. DESIGN CHOICE (assumption row 97): a burst's wait goes on counting also while an
earlier burst of its own requester holds the channel. -/
def Chan.cycle (c : Chan) (lim : Nat) : Chan × Option Nat :=
  if 0 < c.emer then ({ c with emer := c.emer - 1, queue := waitOne [] c.queue }, none)
  else match c.held with
    | some (x, p) =>
      ({ c with held := if x.len ≤ p + 1 then none else some (x, p + 1), queue := waitOne [] c.queue }, some x.key)
    | none => match c.pick lim with
      | none => (c, none)
      | some x =>
        ({ c with held := if x.len ≤ 1 then none else some (x, 1), queue := waitOne [x] (takeBurst x c.queue)
                  last := SMap.set (fun _ => 31) c.last x.grp.prio x.member }, some x.key)

/-- One F-HIVE cycle of every channel. -/
def Bus.cycle (b : Bus) (lim : Nat) : Bus :=
  let out := b.chans.map (fun p => (p.1, p.2.cycle lim))
  let b1 := { b with chans := (out.map (fun p => (p.1, p.2.1))).filter (fun p => p.2 != chanIdle p.1) }
  (out.filterMap (·.2.2)).foldl Bus.back b1

def Bus.cycles (b : Bus) (lim : Nat) : Nat → Bus
  | 0 => b
  | n + 1 => if b.chans.isEmpty then b else (b.cycle lim).cycles lim n

/-! ### The engine's requests -/

/-- Hive accesses of 32 B, for TEL_HIVE_RD and TEL_HIVE_WR. -/
def State.telRd (s : State) (n : Nat) : State := { s with tel := { s.tel with hiveRd := s.tel.hiveRd + n } }

def State.telWr (s : State) (n : Nat) : State := { s with tel := { s.tel with hiveWr := s.tel.hiveWr + n } }

/-- A requester asks for the accesses that `n` bytes from `a` make, and they are counted (R494). -/
def State.post (s : State) (g : HiveGroup) (m : Nat) (write : Bool) (a n : Nat) : State :=
  let xs := burstsFrom g m write (n / 512 + 2) a n
  let k := sumNat (xs.map (·.len))
  let s1 := { s with bus := xs.foldl Bus.request s.bus }
  if write then s1.telWr k else s1.telRd k

/-! ### Waiting allocations (R183) -/

/-- Packets of cluster c in the running step that have not been handed over. -/
def State.cluPackets (s : State) (c : Nat) : Bool :=
  s.step.layers.any (fun r => r.halves.any (fun h => !(h.queues.getD c []).isEmpty))

/-- A token of die port a in a layer in flight whose payload its Whisk has still to write. -/
def State.whiskWaits (s : State) (a : Nat) : Bool :=
  s.step.layers.any (fun r => r.flying && r.halves.any (fun h =>
    (h.ports.getD a ⟨[], false, 0, 0, false⟩).toks.any (fun t => !t.whisked && t.passed == 0)))

/-- A source still has the work that waits for the Hive. -/
def State.srcLive (s : State) : AllocSrc → Bool
  | .hsPort a => !(s.ports.getD a DiePort.reset).hs.isEmpty
  | .resPort a => !(s.ports.getD a DiePort.reset).res.isEmpty
  | .whisk a => s.step.inProg && s.whiskWaits a
  | .rx n v => ((s.links.getD n Link.reset).rx.q.getD v []).any (fun p => p.relay.isNone && p.taken.isNone)
  | .swmPort a =>
    if a < 4 then !(s.ports.getD a DiePort.reset).swm.isEmpty
    else if a = 4 then s.swarm.chunks.any (fun c => !c.final) else s.roster.rev.isSome
  | .clu c => !((s.clus.getD c Cluster.reset).appendQ).isEmpty
  | .hand c => s.cluPackets c

/-- The requests that wait: those whose source has gone wait no more. -/
def State.waiters (s : State) : List AllocReq := s.hive.waiting.filter (fun r => s.srcLive r.src)

/-- WAITLIM in force; 0 acts as 1 (R194). -/
def State.waitLim (s : State) : Nat := max 1 (s.eff F.hiveArbWaitlim)

/-- The Hive's part of an AON tick that starts now: its channels go on while it is clocked and serving (R190), and each
cycle in which an allocation waits is counted (R183). -/
def State.hiveTick (s : State) : State :=
  if s.chip.fastOn && !s.flag F.hiveStatusSelfref then
    let n := tickCycles s.chip.now
    let s1 := { s with bus := s.bus.cycles s.waitLim n }
    if s.waiters.isEmpty then s1 else s1.inc R.hiveWaitCnt n
  else s

/-- A zeroisation pass stops every requester but refresh (R192). -/
def Bus.stopped (b : Bus) : Bus :=
  { b with chans := (b.chans.map (fun p => (p.1, { chanIdle p.1 with emer := p.2.emer }))).filter (fun p => p.2 != chanIdle p.1)
           backlog := [], used := [] }

/-! ### Emergency requesters (R188, R189) -/

/-- An emergency use of a channel for so many cycles; one taken inside a granted burst is counted. -/
def State.emergency (s : State) (ch n : Nat) : State :=
  let s1 := if (s.bus.chan ch).held.isSome then s.inc R.hivePreemptCnt 1 else s
  { s1 with bus := s1.bus.updChan ch (fun c => { c with emer := c.emer + n }) }

/-- INTERVAL: values below 244 act as 244, above 975 as 975 (R194). -/
def State.refInterval (s : State) : Nat := clampNat (s.get F.hiveRefInterval) 244 975

/-- Phase of a channel's refresh in its interval. -/
def State.refPhase (s : State) (ch : Nat) : Nat := ch % 32 * s.refInterval / 32

/-- How many refreshes of a channel TMR_NOW has called for by a time. -/
def State.refCountAt (s : State) (ch now : Nat) : Nat :=
  let c := hiveCycle now
  if c < s.refPhase ch then 0 else (c - s.refPhase ch) / s.refInterval + 1

def State.refCount (s : State) (ch : Nat) : Nat := s.refCountAt ch s.chip.now

/-- The last of those that a channel has had; the exit from self-refresh gives each channel one (R445). -/
def State.refDone (s : State) (ch : Nat) : Nat :=
  max (SMap.get zeroAt s.bus.refreshed ch) ((s.bus.exitAt.map (s.refCountAt ch)).getD 0)

/-- A refresh of a channel is due: its phase of the present interval has come and it has not been refreshed since. -/
def State.refreshDue (s : State) (ch : Nat) : Bool :=
  s.chip.fastOn && !s.flag F.hiveStatusSelfref && decide (s.refDone ch < s.refCount ch)

/-- Cycles for which a refresh holds its channel. -/
def refreshCycles : Nat := 40

/-- The refresh of a channel starts. -/
def State.startRefresh (s : State) (ch : Nat) : State :=
  let n := s.refCount ch
  let s1 := s.emergency ch refreshCycles
  { s1 with bus := { s1.bus with refreshed := SMap.set zeroAt s1.bus.refreshed ch n } }

end Sys2Proof.Machine
end

