-- ==== Sys2Proof/Machine/Hive.lean ====
section
/-! DEFINITION. Machine/Hive.lean: the Hive central store (spec/07): regions, header slots, cell tags, the free list,
buffer and chain mode, references, accounting of own and peer side, and the zeroisation pass. -/

namespace Sys2Proof.Machine

/-! ### Regions (R161, R162) -/

def metaUnit : Nat := 0x4000000
def slotsBase : Nat := 0x10000000
def nil32 : Nat := 0xFFFFFFFF
def hiveEnd : Nat := 0x800000000

/-- Cell size of a pool (R165). -/
def cellSize (q : Nat) : Nat :=
  if q = 0 then 512 else if q = 1 then 4096 else if q = 2 then 16384 else if q = 3 then 65536 else 0x100000

def roundUp (a m : Nat) : Nat := ceilDiv a m * m

def Layout.cnt (l : Layout) (q : Nat) : Nat := l.pools.getD q 0

/-- First address of the data region: the gate region. -/
def Layout.gateBase (l : Layout) : Nat := l.metaSz * metaUnit

/-- Base of a pool: P4, P3, P2, P1 and P0 follow the gate region in this order. -/
def Layout.poolBase (l : Layout) (q : Nat) : Nat :=
  l.gateBase + l.gateSz * metaUnit + sumNat ([4, 3, 2, 1].map (fun r => if q < r then l.cnt r * cellSize r else 0))

/-- TAG_BASE[q]. -/
def Layout.tagBase (l : Layout) : Nat → Nat
  | 0 => roundUp (slotsBase + 64 * l.slots) 0x100000
  | q + 1 => roundUp (l.tagBase q + 8 * l.cnt q) 64

def Layout.tagsEnd (l : Layout) : Nat := l.tagBase 4 + 8 * l.cnt 4

def Layout.dataEnd (l : Layout) : Nat := l.poolBase 0 + l.cnt 0 * cellSize 0

/-- R163: the layouts that the start-image checker refuses. -/
def Layout.bad (l : Layout) : Bool :=
  decide (l.gateBase < l.tagsEnd) || decide (l.metaSz < 5) || decide (64 < l.metaSz) || decide (32 < l.gateSz) ||
    decide (hiveEnd < l.dataEnd)

/-- Link word of a free cell (R168). -/
def linkWord (q gen next : Nat) : List Byte :=
  let b := leBytes 4 next ++ leBytes 1 gen ++ leBytes 1 q
  b ++ leBytes 2 (crc16 b).toNat

/-- NEXT of cell or slot i in a zeroised list of n with stride k. -/
def freshNext (i k n : Nat) : Nat := if i + k < n then i + k else nil32

/-- The byte at an address after a zeroisation pass (R192). -/
def zeroByte (l : Layout) (a : Nat) : Byte :=
  if slotsBase ≤ a ∧ a < slotsBase + 64 * l.slots then
    let o := (a - slotsBase) % 64
    if 40 ≤ o ∧ o < 44 then (leBytes 4 (freshNext ((a - slotsBase) / 64) 1 l.slots)).getD (o - 40) 0 else 0
  else
    match [4, 3, 2, 1, 0].find? (fun q =>
      decide (l.poolBase q ≤ a ∧ a < l.poolBase q + l.cnt q * cellSize q)) with
    | some q =>
      let o := (a - l.poolBase q) % cellSize q
      if o < 8 then (linkWord q 0 (freshNext ((a - l.poolBase q) / cellSize q) 1024 (l.cnt q))).getD o 0 else 0
    | none => 0

/-- The layout that the IL registers give. -/
def State.layoutNow (s : State) : Layout :=
  { metaSz := s.get F.hiveLayoutMetaSize, gateSz := s.get F.hiveLayoutGateSize, slots := s.get F.hiveSlotCntN,
    pools := (List.range 5).map (fun q => s.num (R.hivePoolCnt q)) }

/-! ### Bytes -/

def State.hget (s : State) (a n : Nat) : List Byte := SMap.read (zeroByte s.hive.layout) s.hive.mem a n

/-- A write; the check bits of every 64-bit word that it covers whole are made consistent (R160). -/
def State.hput (s : State) (a : Nat) (bs : List Byte) : State :=
  { s with hive := { s.hive with
      mem := SMap.write (zeroByte s.hive.layout) s.hive.mem a bs
      upsets := s.hive.upsets.filter (fun u => !decide (a ≤ u.1 ∧ u.1 + 8 ≤ a + bs.length)) } }

/-- SECDED over a stretch of the metadata region (R160): corrected words are counted and written back,
uncorrectable ones are counted; true when one is found. -/
def State.probe (s : State) (a n : Nat) : State × Bool :=
  let hit := fun (u : Nat × Bool) => decide (a < u.1 + 8 ∧ u.1 < a + n)
  let hits := s.hive.upsets.filter hit
  let ue := hits.filter (·.2)
  let s1 := if hits.isEmpty then s else
    ((s.inc R.hiveCeCnt (hits.length - ue.length)).inc R.hiveUeCnt ue.length)
  (if hits.isEmpty then s1 else
    { s1 with hive := { s1.hive with upsets := s.hive.upsets.filter (fun u => !(hit u && !u.2)) } }, !ue.isEmpty)

/-- A requester reads a stretch of the metadata region; true when a word of it is uncorrectable. -/
def State.readMeta (s : State) (g : HiveGroup) (m a n : Nat) : State × Bool := (s.post g m false a n).probe a n

/-- A requester writes a stretch of the Hive. -/
def State.writeAt (s : State) (g : HiveGroup) (m a : Nat) (bs : List Byte) : State := (s.post g m true a bs.length).hput a bs

/-- An uncorrectable word lies in a stretch of the metadata region. -/
def State.ueIn (s : State) (a n : Nat) : Bool := s.hive.upsets.any (fun u => u.2 && decide (a < u.1 + 8 ∧ u.1 < a + n))

/-! ### Cell tags (R166) -/

structure Tag where
  next : Nat
  gen : Nat
  ref : Nat
  st : Nat
  deriving DecidableEq, Repr

def State.tag (s : State) (q i : Nat) : Tag :=
  let v := leNat (s.hget (s.hive.layout.tagBase q + 8 * i) 8)
  ⟨v / 2 ^ 32, v / 2 ^ 24 % 256, v / 2 ^ 16 % 256, v / 2 ^ 14 % 4⟩

def State.tagAddr (s : State) (q i : Nat) : Nat := s.hive.layout.tagBase q + 8 * i

/-- The allocator reads a tag; true when it is uncorrectable. -/
def State.readTag (s : State) (q i : Nat) : State × Bool := s.readMeta .alloc 0 (s.tagAddr q i) 8

def State.setTag (s : State) (q i : Nat) (t : Tag) : State :=
  s.writeAt .alloc 0 (s.tagAddr q i)
    (leBytes 8 (t.next % 2 ^ 32 * 2 ^ 32 + t.gen % 256 * 2 ^ 24 + t.ref % 256 * 2 ^ 16 + t.st % 4 * 2 ^ 14))

def State.cellAddr (s : State) (q i : Nat) : Nat := s.hive.layout.poolBase q + i * cellSize q

/-! ### The free list (R169 to R172) -/

def headReset (l : Layout) (k : Nat) : Nat := if k % 1024 < l.cnt (k / 1024) then k % 1024 else nil32

def State.head (s : State) (q sub : Nat) : Nat := SMap.get (headReset s.hive.layout) s.hive.heads (1024 * q + sub)

def State.setHead (s : State) (q sub v : Nat) : State :=
  { s with hive := { s.hive with heads := SMap.set (headReset s.hive.layout) s.hive.heads (1024 * q + sub) v } }

def State.broken (s : State) (q : Nat) : Bool := bit (s.word R.hiveStatus) q

def State.free (s : State) (q : Nat) : Nat := s.num (R.hivePoolFree q)

/-- A link error on pool q; `src` is the control error source: the link word, or the tag's SECDED (R172). -/
def State.linkErr (s : State) (q src : Nat) : State :=
  let s1 := s.inc R.hiveLinkErrCnt 1
  (s1.setWord R.hiveStatus (s1.word R.hiveStatus ||| at_ q 1)).err src 0 none

def srcHiveUe : Nat := 0x06
def srcStale : Nat := 0x07
def srcLinkWord : Nat := 0x08

/-- R170: take one cell of pool q. -/
def State.allocCell (s : State) (q : Nat) : Option Nat × State :=
  let rr := s.hive.rr.getD q 0
  match (List.range 1024).find? (fun n => s.head q ((rr + n) % 1024) != nil32) with
  | none => (none, s)
  | some n =>
    let sub := (rr + n) % 1024
    let i := s.head q sub
    let (s0, ue) := (s.post .alloc 0 false (s.cellAddr q i) 8).readTag q i
    let w := s0.hget (s0.cellAddr q i) 8
    let nx := leNat (w.take 4)
    let t := s0.tag q i
    if ue then (none, s0.linkErr q srcHiveUe)
    else if (crc16 (w.take 6)).toNat ≠ leNat ((w.drop 6).take 2) ∨ leNat ((w.drop 5).take 1) % 16 ≠ q ∨
        leNat ((w.drop 4).take 1) ≠ t.gen ∨ t.st ≠ 0 ∨
        (nx ≠ nil32 ∧ (nx % 1024 ≠ sub ∨ s0.hive.layout.cnt q ≤ nx)) then
      (none, s0.linkErr q srcLinkWord)
    else
      let s1 := s0.setHead q sub nx
      let s2 := { s1 with hive := { s1.hive with rr := updAt s1.hive.rr q (fun _ => (sub + 1) % 1024) } }
      (some i, s2.setNum (R.hivePoolFree q) (s2.free q - 1))

/-- The most cells in use at once in the running step (HIVE_POOL_PEAK). -/
def State.notePeak (s : State) (q : Nat) : State :=
  { s with hive := { s.hive with peak := updAt s.hive.peak q (fun p => max p (s.hive.layout.cnt q - s.free q)) } }

/-- The own side takes n cells of pool q in the step (R183). -/
def State.noteOwn (s : State) (q n : Nat) : State :=
  { s with hive := { s.hive with ownTaken := updAt s.hive.ownTaken q (· + n) } }

/-- Free one cell: link word, tag and head (the body of R171's loop). -/
def State.freeCell (s : State) (q i : Nat) : State :=
  let t := s.tag q i
  let g := (t.gen + 1) % 256
  let sub := i % 1024
  let s1 := s.writeAt .alloc 0 (s.cellAddr q i) (linkWord q g (s.head q sub))
  let s2 := (s1.setTag q i ⟨0, g, 0, 0⟩).setHead q sub i
  s2.setNum (R.hivePoolFree q) (s2.free q + 1)

/-- Free a head cell and each chained cell (R171). The tag of each chained cell is checked as it is read: an uncorrectable
one breaks the pool, and the rest of the chain stays off the lists (R172). -/
def State.freeChain (s : State) (q : Nat) : Nat → Nat → State
  | 0, _ => s
  | fuel + 1, i =>
    let nx := (s.tag q i).next
    let s1 := s.freeCell q i
    if nx = nil32 then s1
    else
      let (s2, ue) := s1.readTag q nx
      if ue then s2.linkErr q srcHiveUe else s2.freeChain q fuel nx

/-- A handle names a head cell of its generation (R167). -/
def State.handleOk (s : State) (h : Handle) : Bool :=
  let t := s.tag h.pool h.cell
  t.st == 1 && t.gen == h.gen

/-! ### Header slots (R164) -/

def State.slotAddr (_ : State) (i : Nat) : Nat := slotsBase + 64 * i

def State.slotHdr (s : State) (i : Nat) : W8 := W8.ofBytes (s.hget (s.slotAddr i) 32)

def State.slotD (s : State) (i w : Nat) : Word := wordAt (s.hget (s.slotAddr i + 32 + 4 * w) 4) 0

/-- The unit that R474 names for an error which a requester of the Hive meets: the region of a Sieve, scoring unit, Whisk,
Ladle or die port, and 0 for the others. -/
def entryUnit (g : HiveGroup) (m : Nat) : Nat :=
  match g with
  | .sieve | .whisk | .ladle | .dieRx | .dieTx => m
  | .alloc | .cluRx | .cluTx | .swarm | .keeper => 0

/-- The cluster that R474 names for a STALE of a requester: a cluster itself, the first cluster 8a of a unit of region a (as R474
says of TILE_TAG; assumption row 96), and 0 for the others. -/
def staleCluster (g : HiveGroup) (m : Nat) : Nat :=
  match g with
  | .sieve | .whisk | .ladle | .dieRx | .dieTx => 8 * m
  | .cluRx | .cluTx => m
  | .alloc | .swarm | .keeper => 0

/-- A header slot is read for a requester: its words are checked, and an uncorrectable one is a control error (R160, R464). True
where the slot can be used. -/
def State.slotRead (s : State) (g : HiveGroup) (m i : Nat) : Bool × State :=
  let (s1, ue) := s.readMeta .alloc 0 (s.slotAddr i) 64
  (!ue, if ue then s1.err srcHiveUe (entryUnit g m) none else s1)

/-- Read header slots one after another: true where every one can be used. -/
def State.slotsRead (s : State) (g : HiveGroup) (m : Nat) : List Nat → Bool × State
  | [] => (true, s)
  | i :: l =>
    let (ok, s1) := s.slotRead g m i
    let (rest, s2) := s1.slotsRead g m l
    (ok && rest, s2)

/-- A stale handle (R167): counted, a control error of the stream that the handle's header slot names where that slot passes
its checks (R464), and no action on the cell. -/
def State.stale (s : State) (cluster : Nat) (slot : Option Nat) : State :=
  let s1 := s.inc R.hiveStaleCnt 1
  match slot with
  | none => s1.err srcStale cluster none
  | some i =>
    let (s2, ue) := s1.readMeta .alloc 0 (s1.slotAddr i) 64
    s2.err srcStale cluster (if !ue && (s2.slotHdr i).ok then some (fld (s2.slotHdr i).w1 31 18) else none)

/-- The tags of the cells chained after cell i are read: true where every one can be used. -/
def State.readChain (s : State) : Nat → Nat → Bool × State
  | 0, _ => (true, s)
  | fuel + 1, i =>
    let nx := (s.tag 0 i).next
    if nx = nil32 then (true, s)
    else
      let (s1, ue) := s.readTag 0 nx
      if ue then (false, s1) else s1.readChain fuel nx

/-- A requester uses a handle for an access of `len` bytes: the head cell's tag, and the tags of a chain, are read. A stale handle
is R167's error and an uncorrectable tag one of R160; true where the access is made. -/
def State.useHandle (s : State) (h : Handle) (len : Nat) (g : HiveGroup) (m : Nat) (slot : Option Nat) : Bool × State :=
  let (s1, ue) := s.readTag h.pool h.cell
  if ue then (false, s1.err srcHiveUe (entryUnit g m) none)
  else if !s1.handleOk h then (false, s1.stale (staleCluster g m) slot)
  else if h.pool = 0 then
    let (ok, s2) := s1.readChain (ceilDiv len 512 - 1) h.cell
    (ok, if ok then s2 else s2.err srcHiveUe (entryUnit g m) none)
  else (true, s1)

/-- Handles, each with its header slot, are used one after another: true where every access is made. -/
def State.useHandles (s : State) (len : Nat) (g : HiveGroup) (m : Nat) : List (Handle × Nat) → Bool × State
  | [] => (true, s)
  | (h, i) :: r =>
    let (ok, s1) := s.useHandle h len g m (some i)
    let (rest, s2) := s1.useHandles len g m r
    (ok && rest, s2)

/-- R171: release one reference of a payload. -/
def State.release (s : State) (h : Handle) (cluster : Nat) (slot : Option Nat) : State :=
  let (s, ue) := s.readTag h.pool h.cell
  if ue then s.linkErr h.pool srcHiveUe
  else if !s.handleOk h then s.stale cluster slot
  else
    let t := s.tag h.pool h.cell
    let s1 := s.setTag h.pool h.cell { t with ref := (t.ref + 255) % 256 }
    if (t.ref + 255) % 256 ≠ 0 then s1 else s1.freeChain h.pool (s.hive.layout.cnt h.pool) h.cell

/-- Add references to a payload (R179); true where it has taken them. A tag that cannot be read breaks the pool (R172). -/
def State.addRef (s : State) (h : Handle) (n cluster : Nat) : Bool × State :=
  let (s, ue) := s.readTag h.pool h.cell
  if ue then (false, s.linkErr h.pool srcHiveUe)
  else if s.handleOk h then
    let t := s.tag h.pool h.cell
    (true, s.setTag h.pool h.cell { t with ref := t.ref + n })
  else (false, s.stale cluster none)

/-! ### Admission (R183) -/

/-- The own-side reservation of pool q not yet taken in the step. -/
def State.unused (s : State) (q : Nat) : Nat := s.num (R.hivePoolRsv q) - s.hive.ownTaken.getD q 0

/-- May a request take n cells of pool q now? -/
def State.canTake (s : State) (q n : Nat) (own : Bool) : Bool :=
  !s.broken q && decide (n ≤ s.free q) && (own || decide (s.unused q + n ≤ s.free q))

/-- Requests that R183 serves before a request of this side and source on this pool. -/
def waitersBefore (ws : List AllocReq) (pool : Nat) (own : Bool) (src : AllocSrc) : Bool :=
  let mine := fun (r : AllocReq) => decide (r.src = src ∧ r.own = own)
  let q := ws.filter (fun r => r.pool == pool)
  let front := fun (o : Bool) => (q.filter (fun r => r.own == o)).takeWhile (fun r => !mine r)
  if own then !(front true).isEmpty else !(q.filter (·.own)).isEmpty || !(front false).isEmpty

/-- Record a waiting request, once per source. -/
def State.wait (s : State) (r : AllocReq) : State :=
  if s.hive.waiting.contains r then s
  else { s with hive := { s.hive with waiting := s.hive.waiting ++ [r] } }

/-- A source's request has been served, or its source has gone. -/
def State.unwait (s : State) (own : Bool) (src : AllocSrc) : State :=
  { s with hive := { s.hive with waiting := s.hive.waiting.filter (fun r => !(decide (r.src = src) && r.own == own)) } }

/-! ### Header slots: allocation -/

def State.slotsFree (s : State) : Nat := s.get F.hiveSlotFreeN

def State.canSlots (s : State) (n : Nat) (own : Bool) : Bool :=
  decide (n ≤ s.slotsFree) && (own || decide (s.num R.hiveRsvSlot - s.hive.ownSlots + n ≤ s.slotsFree))

/-- Take the head of the slot list (R164). -/
def State.popSlot (s : State) (own : Bool) : Nat × State :=
  let i := s.hive.slotHead
  let nx := (s.slotD i 2).toNat
  let s1 := s.put F.hiveSlotFreeN (s.slotsFree - 1)
  (i, { s1 with hive := { s1.hive with slotHead := nx, ownSlots := s1.hive.ownSlots + b2n own } })

/-- Take n slots. The list is under SECDED: an uncorrectable link ends the allocation with a control error (R160, R164).
DESIGN CHOICE (assumption row 96): the slots taken before it stay off the list. -/
def State.popSlots (s : State) (own : Bool) : Nat → Option (List Nat) × State
  | 0 => (some [], s)
  | n + 1 =>
    let (ok, s0) := s.slotRead .alloc 0 s.hive.slotHead
    if !ok then (none, s0)
    else
      let (i, s1) := s0.popSlot own
      let (l, s2) := s1.popSlots own n
      (l.map (i :: ·), s2)

/-- Push a slot on the head of the slot list (R164). -/
def State.freeSlot (s : State) (i : Nat) : State :=
  let s1 := s.writeAt .alloc 0 (s.slotAddr i + 40) (leBytes 4 s.hive.slotHead)
  let s2 := s1.put F.hiveSlotFreeN (s1.slotsFree + 1)
  { s2 with hive := { s2.hive with slotHead := i } }

def State.freeSlots (s : State) (l : List Nat) : State := l.foldl State.freeSlot s

/-- Slots that a request was given go back, since what it needs beside them must still wait: the reservation has not been drawn on
(R182, R183). -/
def State.returnSlots (s : State) (own : Bool) (l : List Nat) : State :=
  let s1 := s.freeSlots l
  if own then { s1 with hive := { s1.hive with ownSlots := s1.hive.ownSlots - l.length } } else s1

/-- Traffic class codes of D1 (R164). -/
abbrev clHs : Nat := 0
abbrev clDisp : Nat := 1
abbrev clRes : Nat := 2
abbrev clSwm : Nat := 3

/-- Write a header slot: W0 to W7, the payload handle, class, side and D3. -/
def State.writeSlot (s : State) (i : Nat) (h : W8) (pay : Option Handle) (cls : Nat) (own : Bool) (d3 : Word) : State :=
  let p := pay.getD ⟨0, 0, 0⟩
  let d1 := at_ 24 (p.gen % 256) ||| at_ 20 (p.pool % 16) ||| at_ 18 cls ||| at_ 17 (b2n own)
  s.writeAt .alloc 0 (s.slotAddr i)
    (h.bytes ++ wordsBytes [BitVec.ofNat 32 p.cell, d1, BitVec.ofNat 32 nil32, d3, 0, 0, 0, 0])

/-- NEXT_SLOT of each slot of an owner's queue names the next one; the last keeps 0xFFFF_FFFF (R164). The queues are those
of a packet's copies and of a tile's rows (assumption row 98). -/
def State.linkSlots (s : State) : List Nat → State
  | i :: j :: l => (s.writeAt .alloc 0 (s.slotAddr i + 40) (leBytes 4 j)).linkSlots (j :: l)
  | _ => s

/-- The payload handle that a slot holds. -/
def State.slotHandle (s : State) (i : Nat) : Handle :=
  let d1 := s.slotD i 1
  ⟨fld d1 23 20, (s.slotD i 0).toNat, fld d1 31 24⟩

/-! ### Payload allocation (R174 to R177) -/

/-- The pool a buffer-mode payload of L bytes fits. -/
def fitPool (len : Nat) : Nat := if len ≤ 512 then 0 else if len ≤ 4096 then 1 else if len ≤ 16384 then 2 else 3

def State.chainMode (s : State) (cls : Nat) : Bool :=
  if cls = clHs then s.flag F.hiveClassHsChain
  else if cls = clDisp then s.flag F.hiveClassDispChain
  else if cls = clRes then s.flag F.hiveClassResChain
  else false

/-- Take one head cell of pool q with REF r. -/
def State.takeHead (s : State) (q r : Nat) (own : Bool) : Option Handle × State :=
  match s.allocCell q with
  | (none, s1) => (none, s1)
  | (some i, s1) =>
    let g := (s1.tag q i).gen
    let s2 := (s1.setTag q i ⟨nil32, g, r, 1⟩).notePeak q
    (some ⟨q, i, g⟩, if own then s2.noteOwn q 1 else s2)

/-- Take one head cell from the first of the pools that serves the request. -/
def State.takeFrom (s : State) (r : Nat) (own : Bool) : List Nat → Option Handle × State
  | [] => (none, s)
  | q :: qs =>
    if s.canTake q 1 own then
      match s.takeHead q r own with
      | (some h, s1) => (some h, s1)
      | (none, s1) => s1.takeFrom r own qs
    else s.takeFrom r own qs

/-- Take n cells of P0 one after another. DESIGN CHOICE (assumption row 96): when a link error stops it, the cells already
taken stay off the free lists until the next zeroisation rebuilds the pool. -/
def State.takeCells (s : State) : Nat → Option (List Nat) × State
  | 0 => (some [], s)
  | n + 1 =>
    match s.allocCell 0 with
    | (none, s1) => (none, s1)
    | (some i, s1) =>
      match s1.takeCells n with
      | (none, s2) => (none, s2)
      | (some l, s2) => (some (i :: l), s2)

/-- Link the cells of a chain through NEXT of their tags (R176). -/
def State.linkChain (s : State) (r : Nat) (head : Bool) : List Nat → State
  | [] => s
  | i :: l =>
    let g := (s.tag 0 i).gen
    (s.setTag 0 i ⟨l.head?.getD nil32, g, if head then r else 0, if head then 1 else 2⟩).linkChain r false l

/-- Take a chain of P0 that holds len bytes. -/
def State.takeChain (s : State) (len r : Nat) (own : Bool) : Option Handle × State :=
  let n := max 1 (ceilDiv len 512)
  if !s.canTake 0 n own then (none, s)
  else match s.takeCells n with
    | (some (i :: l), s1) =>
      let s2 := ((s1.linkChain r true (i :: l)).notePeak 0)
      (some ⟨0, i, (s2.tag 0 i).gen⟩, if own then s2.noteOwn 0 n else s2)
    | (_, s1) => (none, s1)

/-- A request served elsewhere than the pool it fits (R175, R176). -/
def State.noteFb (s : State) (fit : Nat) (h : Option Handle) : State :=
  match h with
  | some x => if x.pool = fit then s else s.inc (R.hivePoolFbCnt fit) 1
  | none => s

/-- Allocate a payload of a class: none when the request must wait; a waiting request is recorded (R183). DESIGN CHOICE
(assumption row 96): where several pools could serve a request, it waits in the order of its fitting pool alone, P0 for a
chain. A chain that P0 cannot supply takes one cell of at least its length (R175, R176). -/
def State.allocPay (s : State) (cls len r : Nat) (own : Bool) (src : AllocSrc) : Option Handle × State :=
  let chain := s.chainMode cls
  let fit := if chain then 0 else fitPool len
  if waitersBefore s.waiters fit own src then (none, s.wait ⟨fit, own, src⟩)
  else
    let (h0, s0) := if chain then s.takeChain len r own else (none, s)
    let (h, s1) := match h0 with
      | some x => (some x, s0)
      | none =>
        if chain then
          let (x, sx) := s0.takeFrom r own (([1, 2, 3] : List Nat).filter (fun q => decide (len ≤ cellSize q)))
          (x, if x.isSome then sx.inc (R.hivePoolFbCnt 0) 1 else sx)
        else
          let (x, sx) := s0.takeFrom r own (([0, 1, 2, 3] : List Nat).filter (fun q => decide (fit ≤ q)))
          (x, sx.noteFb fit x)
    match h with
    | some x => (some x, s1.unwait own src)
    | none => (none, s1.wait ⟨fit, own, src⟩)

/-- A Swarm request: one P4 cell, never falling back (R177). The Swarm's cells are peer side of no reservation. -/
def State.allocP4 (s : State) (r : Nat) (src : AllocSrc) : Option Handle × State :=
  if waitersBefore s.waiters 4 false src then (none, s.wait ⟨4, false, src⟩)
  else match s.takeFrom r false [4] with
    | (some h, s1) => (some h, s1.unwait false src)
    | (none, s1) => (none, s1.wait ⟨4, false, src⟩)

/-- Allocate n header slots, or record the wait (R183); slots wait as pool 5. -/
def State.allocSlots (s : State) (n : Nat) (own : Bool) (src : AllocSrc) : Option (List Nat) × State :=
  if waitersBefore s.waiters 5 own src || !s.canSlots n own then (none, s.wait ⟨5, own, src⟩)
  else s.popSlots own n

/-! ### Payload bytes -/

/-- The cells of a chain, from its head. -/
def State.chainCells (s : State) : Nat → Nat → List Nat
  | 0, _ => []
  | fuel + 1, i =>
    let nx := (s.tag 0 i).next
    if nx = nil32 then [i] else i :: s.chainCells fuel nx

/-- The bytes of a payload (R176: byte j of a chain lies in its (j / 512)-th cell). -/
def State.payload (s : State) (h : Handle) (len : Nat) : List Byte :=
  if h.pool = 0 then
    ((s.chainCells (ceilDiv len 512) h.cell).flatMap (fun i => s.hget (s.cellAddr 0 i) 512)).take len
  else s.hget (s.cellAddr h.pool h.cell) len

/-- Write the part of `bs` (payload bytes from `off`) that falls in cell number k of a chain. -/
def State.writeCell (s : State) (off : Nat) (bs : List Byte) (cell k : Nat) : State :=
  let lo := max off (512 * k)
  let hi := min (off + bs.length) (512 * k + 512)
  if lo < hi then s.hput (s.cellAddr 0 cell + (lo - 512 * k)) ((bs.drop (lo - off)).take (hi - lo)) else s

/-- Write the bytes of a payload from byte `off`. -/
def State.writePay (s : State) (h : Handle) (off : Nat) (bs : List Byte) : State :=
  if h.pool = 0 then
    (s.chainCells (ceilDiv (off + bs.length) 512) h.cell).zipIdx.foldl
      (fun s p => s.writeCell off bs p.1 p.2) s
  else s.hput (s.cellAddr h.pool h.cell + off) bs

/-- Where bytes off to off + n − 1 of a payload lie: address and length of each stretch. -/
def State.payPieces (s : State) (h : Handle) (off n : Nat) : List (Nat × Nat) :=
  if h.pool = 0 then
    (s.chainCells (ceilDiv (off + n) 512) h.cell).zipIdx.filterMap (fun p =>
      let lo := max off (512 * p.2)
      let hi := min (off + n) (512 * p.2 + 512)
      if lo < hi then some (s.cellAddr 0 p.1 + (lo - 512 * p.2), hi - lo) else none)
  else [(s.cellAddr h.pool h.cell + off, n)]

/-- A requester's accesses to bytes of a payload; the bytes themselves are read by `State.payload` and written by
`State.writePay`. -/
def State.postPay (s : State) (g : HiveGroup) (m : Nat) (write : Bool) (h : Handle) (off n : Nat) : State :=
  (s.payPieces h off n).foldl (fun s p => s.post g m write p.1 p.2) s

/-! ### Reservation (R180 to R182) -/

/-- What a payload of a class adds per token: chain cells, or one buffer of its fitting pool (R180). -/
structure Load where
  ub : List Nat
  uc : Nat
  us : Nat
  deriving DecidableEq, Repr

def Load.zero : Load := ⟨[0, 0, 0, 0], 0, 0⟩

def Load.addPay (l : Load) (chain : Bool) (len n : Nat) : Load :=
  if chain then { l with uc := l.uc + n * ceilDiv len 512 }
  else { l with ub := updAt l.ub (fitPool len) (· + n) }

def Load.max (a b : Load) : Load := ⟨(a.ub.zip b.ub).map (fun p => Nat.max p.1 p.2), Nat.max a.uc b.uc, Nat.max a.us b.us⟩

/-- One pool of R181's loop: what is available, and the carry that moves up; none where chains do not fit. -/
def State.fitStep (s : State) (l : Load) (t : Nat) (acc : Option Nat) (q : Nat) : Option Nat :=
  match acc with
  | none => none
  | some carry =>
    let avail := if s.broken q then 0 else s.num (R.hivePoolCnt q) - s.num (R.hivePoolPeer q)
    let chain := if q = 0 then 2 * t * l.uc else 0
    if avail < chain then none
    else
      let want := 2 * t * l.ub.getD q 0 + carry
      some (want - (avail - chain))

/-- HIVE_SLOT_CNT less HIVE_SLOT_PEER, wrapping as R12 says; DESIGN CHOICE (assumption row 99): at the 32 bits of the
registers. -/
def State.slotRoom (s : State) : Nat := (s.word R.hiveSlotCnt - s.word R.hiveSlotPeer).toNat

/-- R181, with R379: no total above 131,072 fits. -/
def State.fits (s : State) (l : Load) (t : Nat) : Bool :=
  decide (t ≤ 131072) && ([0, 1, 2, 3].foldl (s.fitStep l t) (some 0) == some 0) &&
    decide (2 * t * l.us ≤ s.slotRoom)

/-- Each pool's share of a reservation of t tokens, after carry, cut to what the pool allows (R182). -/
def State.shares (s : State) (l : Load) (t : Nat) : List Nat → Nat → List Nat
  | [], _ => []
  | q :: qs, carry =>
    let avail := if s.broken q then 0 else s.num (R.hivePoolCnt q) - s.num (R.hivePoolPeer q)
    let chain := min avail (if q = 0 then 2 * t * l.uc else 0)
    let want := 2 * t * l.ub.getD q 0 + carry
    let got := min want (avail - chain)
    (chain + got) :: s.shares l t qs (want - got)

/-- Write the reservation of t tokens to its registers and start the step's accounting (R182, R183). -/
def State.reserve (s : State) (l : Load) (t : Nat) (short : Bool) : State :=
  let sh := s.shares l t [0, 1, 2, 3] 0
  let slots := min (2 * t * l.us) s.slotRoom
  let s1 := (sh.zipIdx.foldl (fun s p => s.setNum (R.hivePoolRsv p.2) p.1) s)
  let s2 := ((s1.setNum R.hiveRsvT t).setNum R.hiveRsvSlot slots).put F.hiveStatusShort (b2n short)
  { s2 with hive := { s2.hive with ownTaken := [0, 0, 0, 0, 0], ownSlots := 0,
                                    peak := (List.range 5).map (fun q => s2.hive.layout.cnt q - s2.free q) } }

/-- HIVE_POOL_PEAK at the completion of a step. -/
def State.latchPeaks (s : State) : State :=
  (List.range 5).foldl (fun s q => s.setNum (R.hivePoolPeak q) (s.hive.peak.getD q 0)) s

/-! ### Zeroisation (R191, R192) -/

/-- A pass starts and stops every requester but refresh; a trigger during a pass is absorbed by it (R191, R192). -/
def State.zeroStart (s : State) (reason : Nat) : State :=
  if s.flag F.hiveZeroBusy then s
  else
    let s1 := s.put F.hiveZeroBusy 1
    { s1 with hive := { s1.hive with zeroReason := reason, waiting := [] }, bus := s1.bus.stopped }

/-- The lists as steps 3 to 6 of R192 leave them, for the layout of the registers. DESIGN CHOICE (assumption row 96): rr of
every pool (R170) starts again at 0. -/
def State.zeroLists (s : State) : State :=
  let l := s.layoutNow
  let s1 := { s with hive := { s.hive with mem := [], layout := l, heads := [], rr := [0, 0, 0, 0, 0],
                                           slotHead := if l.slots = 0 then nil32 else 0, waiting := [],
                                           ownTaken := [0, 0, 0, 0, 0], ownSlots := 0, peak := [0, 0, 0, 0, 0],
                                           upsets := [] } }
  let s2 := (s1.setWord R.hiveStatus (s1.word R.hiveStatus &&& ~~~0x1F#32)).put F.hiveSlotFreeN l.slots
  (List.range 5).foldl (fun s q =>
    (s.setNum (R.hivePoolFree q) (l.cnt q)).setNum (R.hivePoolBase q) (l.poolBase q / 512)) s2

/-- The pass ends (R192 steps 2 to 7). -/
def State.zeroDone (s : State) : State :=
  let s1 := s.zeroLists.telWr (hiveEnd / 32)
  ((s1.put F.hiveZeroBusy 0).put F.hiveZeroReason s1.hive.zeroReason).inc R.hiveZeroCnt 1

end Sys2Proof.Machine
end

