-- ==== Sys2Proof/Machine/LinkTx.lean ====
section
/-! DEFINITION. Machine/LinkTx.lean: routes (R286, R287), Forager queues, body encryption (R292, R293), the flit and
its header (R262 to R264), and the link arbiter (R296 to R298). -/

namespace Sys2Proof.Machine

/-! ### Names -/

abbrev lsOff : Nat := 0
abbrev lsLanes : Nat := 1
abbrev lsHello : Nat := 2
abbrev lsEcho : Nat := 3
abbrev lsActive : Nat := 4
abbrev lsRecover : Nat := 5
abbrev lsDead : Nat := 6
abbrev lsLp : Nat := 7

/-- Indices of the LINK counters (R303). -/
abbrev lkTx : Nat := 0
abbrev lkRx : Nat := 1
abbrev lkHdrErr : Nat := 2
abbrev lkFec : Nat := 3
abbrev lkNak : Nat := 4
abbrev lkRetry : Nat := 5
abbrev lkRetryTmo : Nat := 6
abbrev lkDup : Nat := 7
abbrev lkPreempt : Nat := 8
abbrev lkForce : Nat := 9
abbrev lkRelay : Nat := 10
abbrev lkRelayDrop : Nat := 11
abbrev lkAbandon : Nat := 12
abbrev lkRecover : Nat := 13
abbrev lkDead : Nat := 14
abbrev lkStall : Nat := 15

def State.link (s : State) (n : Nat) : Link := s.links.getD n Link.reset

def State.updLink (s : State) (n : Nat) (f : Link → Link) : State := { s with links := updAt s.links n f }

def State.updTx (s : State) (n : Nat) (f : LinkTx → LinkTx) : State := s.updLink n (fun l => { l with tx := f l.tx })

def State.updRx (s : State) (n : Nat) (f : LinkRx → LinkRx) : State := s.updLink n (fun l => { l with rx := f l.rx })

def State.updTrain (s : State) (n : Nat) (f : LinkTrain → LinkTrain) : State :=
  s.updLink n (fun l => { l with train := f l.train })

def State.updKeys (s : State) (n : Nat) (f : LinkKeys → LinkKeys) : State :=
  s.updLink n (fun l => { l with keys := f l.keys })

def State.incLink (s : State) (n i k : Nat) : State := s.inc (R.linkCnt n i) k

def State.linkState (s : State) (n : Nat) : Nat := s.get (F.linkStatusState n)

/-- The training phase a link is in: a link in RECOVER trains inside that state (R282; assumption row 51). -/
def State.phase (s : State) (n : Nat) : Nat :=
  let st := s.linkState n
  if st = lsRecover then (s.link n).train.sub else st

/-- All four lanes of the link are up (R33). -/
def State.lanesUp (s : State) (n : Nat) : Bool := s.get (F.linkStatusLanesUp n) == 15

/-- A link that is not ACTIVE sends training records in HELLO and ECHO alone, with all four lanes up (R33, R278). -/
def State.trains (s : State) (n : Nat) : Bool := s.lanesUp n && (s.phase n == lsHello || s.phase n == lsEcho)

/-- Own package, dispatch domain and collective member id (R53, R66). -/
def State.self (s : State) : Nat := s.get F.rosterSelfPkg
def State.dom (s : State) : Nat := s.get F.rosterSelfDom
def State.cmid (s : State) : Nat := 512 * s.dom + s.self

/-- The collective member id of a package of the own dispatch domain. -/
def State.cmidOf (s : State) (pkg : Nat) : Nat := 512 * s.dom + pkg

/-! ### Routes (R286, R287) -/

/-- Live: ACTIVE and, when encrypted, with a ready transmit key (R286, R293). -/
def State.liveLink (s : State) (n : Nat) : Bool :=
  decide (n < s.nLinks) && s.linkState n == lsActive && (!s.encOn n || s.flag (F.linkKeyTxReady n))

/-- The candidates for a destination, as (link, hops), in the order of R286. -/
def State.candidates (s : State) (dst : Nat) : List (Nat × Nat) :=
  let direct := (List.range s.nLinks).filter (fun n =>
    s.linkState n == lsActive && s.flag (F.linkPeerValid n) && s.get (F.linkPeerPeerId n) == dst)
  let e := (SMap.get routeReset s.routes (dst % 4096)).toNat
  let alts := ([0, 1, 2, 3] : List Nat).map (fun i => (e / 2 ^ (8 * i) % 64, e / 2 ^ (8 * i + 6) % 4))
  direct.map (fun n => (n, 0)) ++ alts.filter (fun a => a.2 != 3)

def State.liveCands (s : State) (dst : Nat) : List (Nat × Nat) := (s.candidates dst).filter (fun c => s.liveLink c.1)

/-- Without the link that a packet sent again has left, where there is another (R284). -/
def otherLinks (avoid : Option Nat) (cs : List (Nat × Nat)) : List (Nat × Nat) :=
  let rest := cs.filter (fun c => some c.1 != avoid)
  if rest.isEmpty then cs else rest

def State.reachable (s : State) (dst : Nat) : Bool := !(s.liveCands dst).isEmpty

/-- The live candidates with the fewest hops. -/
def State.bestCands (s : State) (dst : Nat) (avoid : Option Nat) : List Nat :=
  let l := otherLinks avoid (s.liveCands dst)
  let h := l.foldl (fun m c => min m c.2) 3
  (l.filter (fun c => c.2 == h)).map (·.1)

/-- The link a packet takes: the first candidate on VC0 and VC1, the hashed one on VC2 and VC3 (R287). -/
def State.routeOf (s : State) (vc dst : Nat) (avoid : Option Nat) (hdr : List Byte) : Option Nat :=
  let l := s.bestCands dst avoid
  if vc ≤ 1 then l.head?
  else
    let w1 := wordAt hdr 1
    l[(fld w1 31 18 + fld w1 17 1) % max 1 l.length]?

/-- R288: the outbound link of a relayed packet that arrived with HOPS hops. -/
def State.relayRoute (s : State) (dst hops : Nat) (avoid : Option Nat) : Option Nat :=
  if 2 ≤ hops then none
  else ((otherLinks avoid ((s.liveCands dst).filter (fun c => decide (c.2 + hops ≤ 1)))).head?).map (·.1)

/-- The route of a packet: one that has passed intermediates keeps to the hop limit (R287, R288). -/
def State.pktRoute (s : State) (p : TxPkt) : Option Nat :=
  if p.hops = 0 then s.routeOf p.vc p.dst p.avoid p.bytes else s.relayRoute p.dst (p.hops - 1) p.avoid

/-! ### Packets -/

/-- A packet of the engine's own: `nhdr` token headers in `hdr`, and a payload in the Hive. -/
def TxPkt.own (vc dst nhdr : Nat) (hdr : List Byte) (pay : Option (Handle × Nat)) (slots : List Nat) : TxPkt :=
  { vc := vc, dst := dst, hops := 0, mg := false, nhdr := nhdr, bytes := hdr, pay := pay, whole := true, relay := none,
    pab := false, sent := 0, slots := slots, seqs := [], held := 0, avoid := none, fire := none }

/-- Bytes of the packet in all, where they are known. -/
def TxPkt.total (p : TxPkt) : Nat := p.bytes.length + (match p.pay with | some x => x.2 | none => 0)

/-- The packet enters the queue of its VC on link n. -/
def State.enqueue (s : State) (n : Nat) (p : TxPkt) : State :=
  s.updTx n (fun t => { t with q := updAt t.q p.vc (· ++ [p]) })

/-- A Forager's VC2 and VC3 queues hold 16 descriptors (R202). -/
def State.vcRoom (s : State) (n vc : Nat) : Bool :=
  decide (vc < 2) || decide (((s.link n).tx.q.getD vc []).length < 16)

/-- A packet that will never be sent gives up its payload reference and slots. -/
def State.dropPkt (s : State) (p : TxPkt) : State :=
  let s1 := match p.pay with
    | some (h, _) => s.release h 0 p.slots.head?
    | none => s
  s1.freeSlots p.slots

/-- What a package outside every fleet roster may send of its own: management records, JOIN_REQ, and the LOSS that names itself
(R250, R425, R429, assumption row 102). -/
def State.outsiderOk (s : State) (p : TxPkt) : Bool :=
  let op := fld (wordAt p.bytes 1) 31 28
  p.vc == 0 && (p.mg || (fld (wordAt p.bytes 0) 31 28 == 5 && (op == 7 || (op == 5 && fld (wordAt p.bytes 6) 8 0 == s.self))))

/-- An outsider may send the packet: relay runs whether or not the package is a member, and of its own packets few may go (R425). -/
def State.mayStay (s : State) (p : TxPkt) : Bool := p.relay.isSome || p.hops != 0 || s.outsiderOk p

/-- A package may send the packet now. -/
def State.mayGo (s : State) (p : TxPkt) : Bool := s.flag F.bootStageMember || s.mayStay p

/-- Send a packet: its route is chosen as it enters a Forager queue; without a route, or without a free descriptor on
it, the packet is held (R202, R287). What an outsider may not send is dropped (R425). -/
def State.sendPkt (s : State) (p : TxPkt) : State :=
  if !s.mayGo p then s.dropPkt p else
  match s.pktRoute p with
  | some n => if s.vcRoom n p.vc then s.enqueue n p else { s with limbo := s.limbo ++ [p] }
  | none => { s with limbo := s.limbo ++ [p] }

/-- A one-header packet of VC0 or VC1 without payload. -/
def State.sendHdr (s : State) (vc dst : Nat) (h : W8) : State :=
  s.sendPkt (TxPkt.own vc dst 1 h.sealed.bytes none [])

/-- Held packets try their routes again. -/
def State.flushLimbo (s : State) : State :=
  s.limbo.foldl (fun s p => s.sendPkt p) { s with limbo := [] }

/-- The packet waits to leave, and may not once membership has ended; a packet in progress completes (R300, R425, assumption row
102). -/
def State.hushed (s : State) (p : TxPkt) : Bool := p.sent == 0 && !s.mayStay p

/-- Membership has ended: what an outsider may not send is withdrawn. -/
def State.hushLinks (s : State) : State :=
  { s with
    links := s.links.map (fun (l : Link) => { l with tx := { l.tx with q := l.tx.q.map (fun q => q.filter (fun p => !s.hushed p)) } })
    limbo := s.limbo.filter (fun p => !s.hushed p) }

/-- The packets that `hushLinks` withdraws. -/
def State.hushedPkts (s : State) : List TxPkt :=
  s.links.flatMap (fun l => l.tx.q.flatten.filter s.hushed) ++ s.limbo.filter s.hushed

/-! ### Encryption (R292, R293) -/

/-- The counter block of body block b. -/
def ctrBlock (k : Key) (cmid link xseq b : Nat) : List Byte :=
  leBytes 16 (b % 16 + xseq % 2 ^ 64 * 2 ^ 4 + link % 64 * 2 ^ 68 + cmid % 4096 * 2 ^ 74 +
    k.epoch % 65536 * 2 ^ 86 + k.job % 65536 * 2 ^ 102)

/-- Encrypt or decrypt a 240 B body. -/
def cryptBody (k : Key) (cmid link xseq : Nat) (body : List Byte) : List Byte :=
  ((List.range 15).map (fun b =>
    xorBytes (slice body (16 * b) 16) (aes256 k.bytes (ctrBlock k cmid link xseq b)))).flatten

/-! ### The link header (R262) -/

structure FlitHdr where
  kind : Nat
  vc : Nat := 0
  sop : Bool := false
  eop : Bool := false
  seq : Nat := 0
  dst : Nat := 0
  hops : Nat := 0
  mg : Bool := false
  pab : Bool := false
  kg : Nat := 0
  nhdr : Nat := 0
  len : Nat := 0
  deriving DecidableEq, Repr

def W4.crc (h : W4) : Word := crc32c (wordsBytes [h.l0, h.l1, h.l2])

def W4.ok (h : W4) : Bool := W4.crc h == h.l3

/-- Build and seal a link header with the current ACK, credits, NAK, key advertisement and QUIET. -/
def mkHdr (f : FlitHdr) (ack : Nat) (cr : List Nat) (nak kv quiet : Bool) : W4 :=
  let l0 := at_ 28 f.kind ||| at_ 26 f.vc ||| at_ 25 (b2n f.sop) ||| at_ 24 (b2n f.eop) ||| at_ 12 (f.seq % 4096) |||
    at_ 0 (ack % 4096)
  let l1 := at_ 24 (cr.getD 3 0 % 256) ||| at_ 16 (cr.getD 2 0 % 256) ||| at_ 8 (cr.getD 1 0 % 256) |||
    at_ 0 (cr.getD 0 0 % 256)
  let l2 := at_ 20 (f.dst % 4096) ||| at_ 18 (f.hops % 4) ||| at_ 17 (b2n f.mg) ||| at_ 16 (b2n f.pab) |||
    at_ 15 (b2n nak) ||| at_ 14 (f.kg % 2) ||| at_ 13 (b2n kv) ||| at_ 12 (b2n quiet) ||| at_ 8 (f.nhdr % 16) |||
    at_ 0 (f.len % 256)
  ⟨l0, l1, l2, crc32c (wordsBytes [l0, l1, l2])⟩

/-- The current ACK and credit fields go into a header; the fields a kind does not use stay zero (R263). -/
def State.hdrFor (s : State) (n : Nat) (f : FlitHdr) (nak kv quiet : Bool) : W4 :=
  let l := s.link n
  mkHdr f (l.rx.x + 4095) l.rx.freed nak kv quiet

/-- A header leaves: a NAK in it is counted and timed (R272), and the report of R275 has been made. -/
def State.noteSent (s : State) (n : Nat) (nak : Bool) : State :=
  let s1 := s.updTx n (fun t => { t with ctrlDue := false, nakDue := false })
  if nak then (s1.updRx n (fun r => { r with nakAt := some s.chip.now })).incLink n lkNak 1 else s1

/-- Repeat a header with the current ACK, credits and NAK (R273). -/
def State.refreshHdr (s : State) (n : Nat) (h : W4) (nak : Bool) : W4 :=
  s.hdrFor n { kind := fld h.l0 31 28, vc := fld h.l0 27 26, sop := bit h.l0 25, eop := bit h.l0 24,
               seq := fld h.l0 23 12, dst := fld h.l2 31 20, hops := fld h.l2 19 18, mg := bit h.l2 17,
               pab := bit h.l2 16, kg := fld h.l2 14 14, nhdr := fld h.l2 11 8, len := fld h.l2 7 0 } nak false false

/-! ### Choosing the packet of a VC -/

/-- A flit of the packet can be cut now. -/
def TxPkt.ready (p : TxPkt) : Bool :=
  p.relay.isNone || decide (240 * p.sent + 240 ≤ p.bytes.length) ||
    (p.whole && decide (240 * p.sent < p.bytes.length))

/-- The packet a VC sends from: the one in progress, else relayed and own packets take turns (R264, R288). -/
def LinkTx.current (t : LinkTx) (v : Nat) : Option Nat :=
  let q := t.q.getD v []
  match indicesFrom (fun (p : TxPkt) => decide (0 < p.sent)) 0 q with
  | i :: _ => some i
  | [] =>
    let last := t.lastRelay.getD v false
    match indicesFrom (fun (p : TxPkt) => p.relay.isSome != last) 0 q with
    | i :: _ => some i
    | [] => if q.isEmpty then none else some 0

/-- The VC has a flit ready. -/
def LinkTx.hasFlit (t : LinkTx) (v : Nat) : Bool :=
  match t.current v with
  | some i => match (t.q.getD v [])[i]? with
    | some p => p.ready
    | none => false
  | none => false

/-- R296: the VC requests a slot. -/
def State.vcRequests (s : State) (n v : Nat) : Bool :=
  let t := (s.link n).tx
  t.hasFlit v && decide (1 ≤ t.credits.getD v 0) && decide (t.retry.length < 128) &&
    (!s.encOn n || s.flag (F.linkKeyTxReady n))

/-- VC2 and VC3 alternate, beginning with the one not granted last. -/
def order23 (last : Nat) : List Nat := if last = 2 then [0, 1, 3, 2] else [0, 1, 2, 3]

/-- The grant among VCs: the one granted, and whether the wait limit forced it (R296 orders 2 to 5). -/
def State.pickVc (s : State) (n : Nat) : Option (Nat × Bool) :=
  let t := (s.link n).tx
  let ord := (order23 t.last23).filter (fun v => s.vcRequests n v)
  let lim := max 1 (s.slotGet (F.linkWaitlimLimit n))
  let forced := ord.filter (fun v => decide (lim ≤ t.wait.getD v 0))
  let most := forced.foldl (fun m v => max m (t.wait.getD v 0)) 0
  match forced.find? (fun v => t.wait.getD v 0 == most) with
  | some v => some (v, true)
  | none => ord.head?.map (fun v => (v, false))

/-! ### Cutting a flit (R264) -/

/-- The bytes of flit i of a packet, and whether it is the last. -/
def State.flitOf (s : State) (p : TxPkt) : List Byte × Bool :=
  let all := match p.pay with
    | some (h, len) => p.bytes ++ s.payload h len
    | none => p.bytes
  ((all.drop (240 * p.sent)).take 240, p.whole && decide (all.length ≤ 240 * p.sent + 240))

/-- A RELEASE takes REM at the grant of its slot: the fire cycle less the granted cycle, not below 0 (R359). -/
def TxPkt.stamp (p : TxPkt) (cyc : Nat) : TxPkt :=
  match p.fire with
  | none => p
  | some f =>
    let h := W8.ofBytes p.bytes
    { p with bytes := { h with w2 := BitVec.ofNat 32 (f - cyc) }.sealed.bytes }

/-- The flit that leaves next carries a RELEASE, an own or a relayed one (R361). -/
def TxPkt.isRelease (p : TxPkt) : Bool :=
  p.sent == 0 && p.vc == 0 && !p.mg && fld (wordAt p.bytes 0) 31 28 == 4 && fld (wordAt p.bytes 1) 31 28 == 9

/-- What stays of a sent packet until its last flit is acknowledged (R283): the whole packet on VC0 and VC1, its
headers on VC2 and VC3. -/
def State.retain (s : State) (p : TxPkt) : TxPkt :=
  if p.vc ≤ 1 then
    { p with bytes := (match p.pay with | some (h, len) => p.bytes ++ s.payload h len | none => p.bytes), pay := none,
             slots := [] }
  else { p with bytes := p.bytes.take (32 * p.nhdr), pay := none, slots := [] }

/-- A place of the receive buffer of link n is freed (R268, R269). -/
def State.freePlaces (s : State) (n v k : Nat) : State :=
  let s1 := s.updRx n (fun r => { r with freed := updAt r.freed v (fun c => (c + k) % 256) })
  if k = 0 then s1 else s1.updTx n (fun t => { t with ctrlDue := true })

/-- The payload of a packet is read as its flits leave; through a handle that is stale nothing is read, and the packet ends
with zeros and PAB (R167, assumption row 103). -/
def State.readPay (s : State) (n : Nat) (p : TxPkt) : State × TxPkt :=
  match p.pay with
  | none => (s, p)
  | some (h, len) =>
    match s.useHandle h len .cluTx (n / 2) p.slots.head? with
    | (true, s1) => (if p.sent = 0 then s1.postPay .cluTx (n / 2) false h 0 len else s1, p)
    | (false, s1) => (s1, { p with bytes := padTo p.total p.bytes, pay := none, pab := true })

/-- Send the next flit of VC v of link n as a new DATA flit. -/
def State.sendData (s : State) (n v cyc : Nat) : State :=
  let l := s.link n
  match l.tx.current v with
  | none => s
  | some i =>
    match (l.tx.q.getD v [])[i]? with
    | none => s
    | some p0 =>
      let (s, p) := s.readPay n (p0.stamp cyc)
      let (raw, last) := s.flitOf p
      let enc := s.encOn n
      let key := l.keys.tx.getD ⟨0, 0, 0, []⟩
      let padded := padTo 240 raw
      let body := if enc then cryptBody key s.cmid n l.keys.xseq padded else padded
      let nak := l.tx.nakDue
      let h := s.hdrFor n { kind := 1, vc := v, sop := p.sent == 0, eop := last, seq := l.tx.seq, dst := p.dst,
                            hops := p.hops, mg := p.mg, pab := last && p.pab, kg := if enc then key.kg else 0,
                            nhdr := if p.sent == 0 then p.nhdr else 0, len := raw.length } nak false false
      let p1 := { p with sent := p.sent + 1, seqs := p.seqs ++ [l.tx.seq], held := p.held - 1 }
      let s1 := s.updTx n (fun t =>
        { t with
          seq := (t.seq + 1) % 4096
          retry := t.retry ++ [⟨t.seq, h, body, p.isRelease⟩]
          oldestAt := if t.retry.isEmpty then s.chip.now else t.oldestAt
          credits := updAt t.credits v (· - 1)
          last23 := if 2 ≤ v then v else t.last23
          lastRelay := if last then updAt t.lastRelay v (fun _ => p.relay.isSome) else t.lastRelay
          q := updAt t.q v (fun q => if last then q.eraseIdx i else q.set i p1)
          flight := if last then t.flight ++ [s.retain p1] else t.flight })
      let s2 := if enc then s1.updKeys n (fun k => { k with xseq := k.xseq + 1 }) else s1
      let s3 := (s2.noteSent n nak).emit (.flit n h body)
      let s4 := { (s3.incLink n lkTx 1) with tel := { s3.tel with flitTx := s3.tel.flitTx + 1 } }
      let s5 := match p.relay with
        | some m => if 0 < p.held then s4.freePlaces m v 1 else s4
        | none => s4
      if last then
        let s6 := match p.pay with
          | some (hd, _) => s5.release hd (n / 2) p.slots.head?
          | none => s5
        (s6.freeSlots p.slots).flushLimbo
      else s5

/-- Resend the next flit of a go-back episode (R273). -/
def State.resendOne (s : State) (n : Nat) : State :=
  let t := (s.link n).tx
  match t.retry[t.retry.length - t.resend]? with
  | none => s
  | some r =>
    let nak := t.nakDue
    let h := s.refreshHdr n r.h nak
    let s1 := (s.updTx n (fun t => { t with resend := t.resend - 1 })).noteSent n nak
    let s2 := s1.emit (.flit n h r.body)
    if r.rel then s2.inc R.swarmBarRetryCnt 1 else s2

/-- Send a CTRL flit (R263, R275). -/
def State.sendCtrl (s : State) (n : Nat) (quiet : Bool) : State :=
  let l := s.link n
  let nak := l.tx.nakDue
  let newest := l.keys.rx.head?
  let h := s.hdrFor n { kind := 2, kg := (newest.map (·.kg)).getD 0 } nak newest.isSome quiet
  let s1 := (s.noteSent n nak).updTx n (fun t => { t with aliveDue := false, lastCtrl := s.chip.now, quiet := quiet })
  let s2 := if newest.isSome then s1.updKeys n (fun k => { k with adv := true }) else s1
  s2.emit (.flit n h (List.replicate 240 0))

/-- Send the next training record: ECHO_REQ takes T4, and ECHO_RSP its T6, at the grant (R279, R281); a HELLO_ACK has been
sent from now on (R280). -/
def State.sendTrain (s : State) (n cyc : Nat) : State :=
  match (s.link n).tx.trainQ with
  | [] => s
  | t :: q =>
    let top := fld t.w0 31 28
    let c : Word := BitVec.ofNat 32 cyc
    let t1 := if top = 3 then { t with w4 := c } else if top = 4 then { t with w6 := c - t.w6 } else t
    let h := mkHdr { kind := 3, len := 32 } 0 [0, 0, 0, 0] false false false
    let s1 := s.updTx n (fun x => { x with trainQ := q })
    let s2 := if top = 2 then s1.updTrain n (fun x => { x with ackSent := true }) else s1
    s2.emit (.flit n h (padTo 240 t1.sealed.bytes))

/-- R298: wait counters after a slot. -/
def State.ageWaits (s : State) (n : Nat) (won : Option Nat) : State :=
  let req := ([0, 1, 2, 3] : List Nat).map (fun v => s.vcRequests n v)
  s.updTx n (fun t =>
    { t with wait := t.wait.zipIdx.map (fun p =>
        if won = some p.2 then 0 else if req.getD p.2 false then p.1 + 1 else p.1) })

/-- A VC2 or VC3 packet in progress that requests this slot (R297). -/
def State.preempted (s : State) (n : Nat) : Bool :=
  let t := (s.link n).tx
  ([2, 3] : List Nat).any (fun v => s.vcRequests n v && (t.q.getD v []).any (fun p => decide (0 < p.sent)))

/-- One flit slot of link n (R296). -/
def State.grantSlot (s : State) (n cyc : Nat) : State :=
  let t := (s.link n).tx
  if s.linkState n ≠ lsActive then (if s.trains n then s.sendTrain n cyc else s)
  else if 0 < t.resend then (s.resendOne n).ageWaits n none
  else match s.pickVc n with
    | some (v, forced) =>
      let s1 := s.ageWaits n (some v)
      let s2 := if forced then s1.incLink n lkForce 1 else s1
      let s3 := if v ≤ 1 && s.preempted n then s2.incLink n lkPreempt 1 else s2
      s3.sendData n v cyc
    | none =>
      let s1 := s.ageWaits n none
      if t.ctrlDue || t.nakDue || t.aliveDue then s1.sendCtrl n false else s1.sendTrain n cyc

end Sys2Proof.Machine
end

