-- ==== Sys2Proof/Machine/LinkRx.lean ====
section
/-! DEFINITION. Machine/LinkRx.lean: waking on an arrival (R443), handling of arriving flits (R268, R272, R273),
reassembly, relay (R288 to R290) and the island drop (R425). -/

namespace Sys2Proof.Machine

/-! ### Waking (R443) -/

/-- The power states a wake source wakes from. -/
def wakesFrom (code st : Nat) : Bool :=
  if st = 1 ∨ st = 2 then true else st == 3 && (code == 2 || code == 4 || code == 5)

/-- A wake source acts: the wake starts and LAST_WAKE records it; any other source cancels WAKE (R443, R447). Of sources in
one AON tick the lowest code is recorded, a WAKE timer that is due among them. The gap's choice has had its effect. From E2 and E3
the Head Keeper must ask for the setpoint (R50): while it is halted the source waits (R496, assumption row 79). -/
def State.startWake (s : State) (code : Nat) : State :=
  let st := s.get F.clkStateState
  if !wakesFrom code st then s
  else if s.flag F.clkStateWaking then
    if s.power.wakeT0 == s.chip.now && decide (code < s.get F.clkStateLastWake) then s.put F.clkStateLastWake code else s
  else if 2 ≤ st && !s.keeperOn 8 then
    { s with power := { s.power with wakeHeld := some (s.power.wakeHeld.getD code) } }
  else
    let first := if s.due tmWake && wakesFrom 1 st then 1 else code
    let s1 := (s.put F.clkStateWaking 1).put F.clkStateLastWake first
    let s2 := { s1 with power := { s1.power with wakeFrom := st, wakeT0 := s.chip.now, plan := 0, wakeHeld := none,
                                                 wakeAt := if first = 1 then s1.power.wakeAt else none } }
    let s3 := s2.disarm tmWake
    if 2 ≤ st then s3.emit (.setpoint (clampNat (s3.get F.clkVsetE0Mv) 650 850)) else s3

/-- The engine is in E0. -/
def State.awake (s : State) : Bool := s.get F.clkStateState == 0

/-! ### Header fields of an arriving flit -/

/-- Entry to RECOVER (R282): the sequence state, buffers and keys stay; training starts again. -/
def State.enterRecover (s : State) (n : Nat) : State :=
  if s.linkState n ≠ lsActive then s
  else
    let s1 := (s.put (F.linkStatusState n) lsRecover).incLink n lkRecover 1
    s1.updTrain n (fun t => { t with sub := if s.get (F.linkStatusLanesUp n) = 15 then 2 else 1, lanesAt := s.chip.now, resume := true,
                                     ackSent := false, ackGot := false, helloAt := 0, recoverAt := s.chip.now })

/-- A go-back episode (R273); after MAXRETRY of them without an ACK that advances, RECOVER in place of one more (R274). DESIGN
CHOICE (assumption row 96): with an empty retry buffer there is nothing to go back to, and a NAK starts and counts no episode. -/
def State.goBack (s : State) (n i : Nat) : State :=
  let t := (s.link n).tx
  if t.retry.isEmpty then s
  else if max 1 (s.slotGet (F.linkTmoMaxretry n)) ≤ t.episodes then s.enterRecover n
  else (s.incLink n i 1).updTx n (fun t =>
    { t with resend := t.retry.length, episodes := t.episodes + 1, oldestAt := s.chip.now })

/-- Every retry-buffer flit up to and including an ACK is freed, and each packet wholly acknowledged (R273). -/
def State.takeAck (s : State) (n ack : Nat) : State :=
  let t := (s.link n).tx
  let kept := t.retry.filter (fun r => after 12 r.seq ack)
  if kept.length = t.retry.length then s
  else
    s.updTx n (fun t =>
      { t with retry := kept, resend := min t.resend kept.length, episodes := 0, oldestAt := s.chip.now,
               flight := t.flight.filter (fun p => after 12 (p.seqs.getLastD 0) ack) })

/-- Credits freed since the last header (R268). -/
def State.takeCredits (s : State) (n : Nat) (l1 : Word) : State :=
  let cr := ([0, 1, 2, 3] : List Nat).map (fun v => fld l1 (8 * v + 7) (8 * v))
  s.updTx n (fun t =>
    { t with credits := (t.credits.zip (cr.zip t.lastCr)).map (fun p => p.1 + (p.2.1 + 256 - p.2.2) % 256)
             lastCr := cr
             stallAt := t.stallAt.zipIdx.map (fun p =>
               if cr.getD p.2 0 = t.lastCr.getD p.2 0 then p.1 else none) })

/-- ACK, credits and NAK of a DATA or CTRL flit (R273). -/
def State.useHeader (s : State) (n : Nat) (h : W4) : State :=
  let s1 := (s.takeAck n (fld h.l0 11 0)).takeCredits n h.l1
  if bit h.l2 15 then s1.goBack n lkRetry else s1

/-- A NAK is wanted: at most one until the next accepted flit or RETRY_US (R272). -/
def State.wantNak (s : State) (n : Nat) : State :=
  let ok := match (s.link n).rx.nakAt with
    | none => true
    | some t => decide (t + 1000 * max 1 (s.slotGet (F.linkTmoRetryUs n)) ≤ s.chip.now)
  if ok && s.linkState n == lsActive then s.updTx n (fun t => { t with nakDue := true, ctrlDue := true }) else s

/-- A flit passed its header check: the ALIVE timer restarts, and QUIET ends (R275, R299). -/
def State.noteRx (s : State) (n : Nat) : State :=
  (s.updRx n (fun r => { r with lastRx := s.chip.now })).put (F.linkStatusQuietPeer n) 0

/-! ### Packets in the receive buffer -/

def State.rxq (s : State) (n v : Nat) : List RxPkt := (s.link n).rx.q.getD v []

def State.setRxq (s : State) (n v : Nat) (q : List RxPkt) : State :=
  s.updRx n (fun r => { r with q := updAt r.q v (fun _ => q) })

/-- Remove packet i of a VC and free the places it still holds (R269). -/
def State.rxRemove (s : State) (n v i : Nat) : State :=
  let q := s.rxq n v
  match q[i]? with
  | none => s
  | some p => (s.setRxq n v (q.eraseIdx i)).freePlaces n v p.places

/-- The packet still being received on a VC: the newest, unless it is whole. -/
def State.rxOpen (s : State) (n v : Nat) : Option (Nat × RxPkt) :=
  let q := s.rxq n v
  match q.getLast? with
  | some p => if p.whole then none else some (q.length - 1, p)
  | none => none

def RxPkt.hdr (p : RxPkt) (i : Nat) : W8 := W8.ofBytes (p.bytes.drop (32 * i))

/-- TYPE of the first token header. -/
def RxPkt.type (p : RxPkt) : Nat := fld (wordAt p.bytes 0) 31 28

/-- The token headers of a packet have all arrived (R283). -/
def RxPkt.hdrsIn (p : RxPkt) : Bool := decide (1 ≤ p.nhdr) && decide (32 * p.nhdr ≤ p.bytes.length)

/-- What a packet shows can be judged: its headers are in, it is whole, or its SOP flit announces no header (R265); of a management
record the SOP flit is all there may be (R285). -/
def RxPkt.judged (p : RxPkt) : Bool := p.hdrsIn || p.whole || p.mg || p.nhdr == 0

/-- The packet holds no more than its headers and the payload they announce; a whole one that was not abandoned, exactly that
(R265). -/
def RxPkt.lenFits (p : RxPkt) : Bool :=
  let n := 32 * p.nhdr + 16 * fld (wordAt p.bytes 0) 19 0
  decide (p.bytes.length ≤ n) && (!p.whole || p.pab || p.bytes.length == n)

def srcRxHdr : Nat := 0x09

/-! ### Events (R226) -/

abbrev ceStub : Nat := 0x01
abbrev ceCutAbort : Nat := 0x02
abbrev ceRxBad : Nat := 0x03
abbrev ceRxStep : Nat := 0x04
abbrev ceManOver : Nat := 0x05
abbrev ceHalfSent : Nat := 0x10
abbrev ceHalfDone : Nat := 0x11

def State.cluster (s : State) (c : Nat) : Cluster := s.clus.getD c Cluster.reset

def State.updClu (s : State) (c : Nat) (f : Cluster → Cluster) : State := { s with clus := updAt s.clus c f }

/-- Write an entry of cluster c's ring; a full ring loses its oldest entry. -/
def State.cluEvent (s : State) (c code : Nat) (e2 e3 : Word) : State :=
  if 0x10 ≤ code ∧ s.eff (F.cluCtlEvtInfo c) = 0 then s
  else
    let i := s.get (F.cluEvtWrIndex c)
    let full := s.get (F.cluEvtWrCount c) == 64
    let s1 := (s.setWord (R.cluEvt c (4 * i)) (at_ 16 (s.cluster c).evSeq ||| at_ 8 code)).setNum (R.cluEvt c (4 * i + 1)) s.chip.now
    let s2 := (s1.setWord (R.cluEvt c (4 * i + 2)) e2).setWord (R.cluEvt c (4 * i + 3)) e3
    let s3 := (s2.put (F.cluEvtWrIndex c) (i + 1)).updClu c (fun k => { k with evSeq := (k.evSeq + 1) % 65536 })
    if full then (s3.incF (F.cluEvtRdRd c) 1).inc (R.cluEvtLost c) 1
    else s3.incF (F.cluEvtWrCount c) 1

def State.setRx (s : State) (n v i : Nat) (p : RxPkt) : State := s.setRxq n v ((s.rxq n v).set i p)

/-- Discard packet i: what has still to arrive of it is discarded as it arrives. -/
def State.rxDiscard (s : State) (n v i : Nat) : State :=
  match (s.rxq n v)[i]? with
  | none => s
  | some p =>
    if p.whole then s.rxRemove n v i
    else (s.setRx n v i { p with relay := some 64, places := 0 }).freePlaces n v p.places

/-- The source package and link of an event's E3. -/
def evSrcLink (h : W8) (n : Nat) : Word := at_ 0 (fld h.w5 31 23) ||| at_ 16 n

/-- R199's failure: the packet is discarded, counted, logged with the header that fails, and a control error. -/
def State.rxBad (s : State) (n v i : Nat) (h : W8) : State :=
  (((s.rxDiscard n v i).inc (R.cluRxErrCnt (n / 2)) 1).cluEvent (n / 2) ceRxBad h.w0 (evSrcLink h n)).err srcRxHdr n none

/-- A roster control packet that fails its check: counted, and no control error (R239). -/
def State.rosterRxBad (s : State) (n v i : Nat) : State := (s.rxDiscard n v i).inc R.rosterRecErrCnt 1

/-- R425: what a package outside every fleet roster acts on. -/
def RxPkt.islandOk (p : RxPkt) (v : Nat) : Bool :=
  v == 0 && (p.mg || (p.type == 5 && (let op := fld (wordAt p.bytes 1) 31 28; op == 8 || op == 9)))

/-- The words of a management record pass R285. -/
def RxPkt.mgOk (p : RxPkt) : Bool :=
  p.bytes.length == 16 && crc32c (p.bytes.take 12) == wordAt p.bytes 3 && fld (wordAt p.bytes 0) 31 28 == 1

/-- A packet addressed here, as far as it has arrived, is judged: what no row of its own takes is discarded (R199, R239, R285,
R425), a packet on the wrong VC among it (R266), one whose SOP flit announces no header, and a management record whose NHDR is not 0
(R265). What fails is discarded before it is whole, since it may have more flits than the VC has places (R269). A control packet
of TYPE 0x4 on VC0 is one header and no payload, so it ends with the flit that holds its header (R343, R344). -/
def State.rxArrived (s : State) (n v : Nat) : State :=
  let q := s.rxq n v
  match q.getLast? with
  | none => s
  | some p =>
    let i := q.length - 1
    if !p.judged then s
    else if !s.flag F.bootStageMember && !p.islandOk v then (s.rxDiscard n v i).inc R.bootIslandDropCnt 1
    else if p.mg then
      if v ≠ 0 then s.rxBad n v i (p.hdr 0)
      else if p.nhdr ≠ 0 then s.rxBad n v i (p.hdr 0)
      else if p.whole && p.mgOk then s else (s.rxDiscard n v i).incLink n lkHdrErr 1
    else if v ≤ 1 then
      if p.pab && v == 0 then s.rxRemove n v i
      else if p.type = 5 then
        (let op := fld (wordAt p.bytes 1) 31 28
         if v = 0 ∧ 1 ≤ op ∧ op ≤ 9 ∧ p.nhdr = 1 then s else s.rosterRxBad n v i)
      else if p.type = 4 then
        if v = 0 ∧ p.whole = false then (s.rxDiscard n v i).inc R.swarmHdrErrCnt 1 else s
      else s.rxBad n v i (p.hdr 0)
    else if p.type = 5 && p.taken.isNone then s.rosterRxBad n v i
    else s

/-! ### Relay (R288 to R290) -/

/-- A flit joins the outbound packet that relays VC v of link n, with its place; the last one ends it, with its PAB. -/
def relayGrow (n : Nat) (bs : List Byte) (last pab : Bool) : List TxPkt → List TxPkt
  | [] => []
  | p :: r =>
    if p.relay = some n ∧ !p.whole then
      { p with bytes := p.bytes ++ bs, whole := last, pab := p.pab || pab, held := p.held + 1 } :: r
    else p :: relayGrow n bs last pab r

/-- The outbound link still holds the relayed packet. -/
def State.relayHeld (s : State) (n v o : Nat) : Bool :=
  ((s.link o).tx.q.getD v []).any (fun p => decide (p.relay = some n) && !p.whole)

def State.relayAdd (s : State) (n v o : Nat) (bs : List Byte) (last pab : Bool) : State :=
  s.updTx o (fun t => { t with q := updAt t.q v (relayGrow n bs last pab) })

/-- R288, R289: the outbound link of a packet addressed elsewhere, or 64 where it is discarded. A relayed packet enters its queue
without a free descriptor of R202, and takes one up while it is there (DESIGN CHOICE, assumption row 96). -/
def State.relayStart (s : State) (n v : Nat) (p : RxPkt) : Nat × State :=
  let out := if 2 ≤ v ∧ p.dst / 512 ≠ s.dom then none else s.relayRoute p.dst p.hops none
  match out with
  | none => (64, s.incLink n lkRelayDrop 1)
  | some o =>
    let t : TxPkt := { vc := v, dst := p.dst, hops := p.hops + 1, mg := p.mg, nhdr := p.nhdr, bytes := [], pay := none,
                       whole := false, relay := some n, pab := false, sent := 0, slots := [], seqs := [], held := 0, avoid := none, fire := none }
    (o, (s.enqueue o t).incLink o lkRelay 1)

/-! ### An accepted DATA flit -/

/-- The body in clear (R292, R295): the receive key of the flit's generation, and its XSEQ. DESIGN CHOICE (assumption row 96): where no
key of that generation is installed, the flit is accepted with its body as it came. -/
def State.clearBody (s : State) (n : Nat) (h : W4) (body : List Byte) : List Byte × State :=
  if !s.encOn n then (body, s)
  else
    let kg := fld h.l2 14 14
    let k := (s.link n).keys
    match k.rx.find? (fun x => x.kg == kg) with
    | none => (body, s)
    | some key =>
      let x := if k.rxKg = none ∨ k.rxKg = some kg then k.rxXseq else 0
      (cryptBody key (s.get (F.linkPeerPeerId n)) (s.get (F.linkPeerPeerLink n)) x body,
        s.updKeys n (fun k => { k with rxXseq := x + 1, rxKg := some kg }))

/-- A flit of a packet that its cluster has taken goes to the Hive, and its place is free (R212, R269); through a handle that is
stale it is written nowhere (R167). -/
def State.rxStore (s : State) (n v : Nat) (p : RxPkt) (bs : List Byte) : State :=
  match p.taken with
  | some (some h, slots) =>
    let off := p.bytes.length - 32 * p.nhdr
    let part := bs.take (16 * fld (wordAt p.bytes 0) 19 0 - off)
    (match s.useHandle h (off + part.length) .cluRx (n / 2) slots.head? with
      | (true, s1) => (s1.postPay .cluRx (n / 2) true h off part.length).writePay h off part
      | (false, s1) => s1).freePlaces n v 1
  | _ => s.freePlaces n v 1

/-- Append an accepted flit to its packet, here or toward its relay. -/
def State.rxFlit (s : State) (n : Nat) (h : W4) (clear : List Byte) : State :=
  let v := fld h.l0 27 26
  let sop := bit h.l0 25
  let eop := bit h.l0 24
  let pab := eop && bit h.l2 16
  let bs := clear.take (fld h.l2 7 0)
  let s0 := if pab then s.incLink n lkAbandon 1 else s
  let s1 :=
    if sop then
      let p : RxPkt := { dst := fld h.l2 31 20, hops := fld h.l2 19 18, mg := bit h.l2 17, nhdr := fld h.l2 11 8,
                         bytes := [], whole := false, pab := false, cut := s0.get (F.cluCutBytes (n / 2)),
                         taken := none, released := false, counted := false, places := 0, relay := none }
      if p.dst = s0.cmid then s0.setRxq n v (s0.rxq n v ++ [p])
      else
        let (o, s2) := s0.relayStart n v p
        s2.setRxq n v (s2.rxq n v ++ [{ p with relay := some o }])
    else s0
  match s1.rxOpen n v with
  | none => s1.freePlaces n v 1
  | some (i, p) =>
    let q := s1.rxq n v
    match p.relay with
    | some o =>
      let s2 := if o < 64 && s1.relayHeld n v o then s1.relayAdd n v o bs eop pab else s1.freePlaces n v 1
      if eop then s2.setRxq n v (q.eraseIdx i) else s2
    | none =>
      let p1 := { p with bytes := p.bytes ++ bs, whole := eop, pab := pab }
      if p.taken.isSome then (s1.setRxq n v (q.set i p1)).rxStore n v p bs
      else
        -- a roster control flit is handed to the Keepers as it comes, and its place is free (R269)
        let s2 := if v == 0 && !p1.mg && p1.type == 5 then (s1.setRxq n v (q.set i p1)).freePlaces n v 1
          else s1.setRxq n v (q.set i { p1 with places := p.places + 1 })
        s2.rxArrived n v

/-! ### Arriving flits (R272) -/

/-- The peer's QUIET ends with any flit (R275, R299): the ALIVE timer, suspended since the QUIET flit restarted it, goes on from
there. -/
def State.quietEnds (s : State) (n : Nat) : State :=
  if s.flag (F.linkStatusQuietPeer n) then
    (s.updRx n (fun r => { r with lastRx := s.chip.now })).put (F.linkStatusQuietPeer n) 0
  else s

/-- A flit marked bad, or whose header fails (R32, R272). -/
def State.badFlit (s : State) (n : Nat) : State := ((s.quietEnds n).incLink n lkHdrErr 1).wantNak n

/-- A DATA flit whose header passed its check: its ACK, credits and NAK are used in every state of the link (R268, R273), and
it is accepted in ACTIVE only (R278). -/
def State.dataFlit (s : State) (n : Nat) (h : W4) (body : List Byte) : State :=
  let s1 := (s.noteRx n).useHeader n h
  if s.linkState n ≠ lsActive then s1
  else
    let seq := fld h.l0 23 12
    let x := (s1.link n).rx.x
    if seq = x then
      let s2 := (s1.updRx n (fun r => { r with x := (r.x + 1) % 4096, nakAt := none })).incLink n lkRx 1
      let s3 := { s2.updTx n (fun t => { t with ctrlDue := true }) with
                  tel := { s2.tel with flitRx := s2.tel.flitRx + 1 } }
      let (clear, s4) := s3.clearBody n h (padTo 240 body)
      s4.rxFlit n h clear
    else if before 12 seq x then s1.incLink n lkDup 1
    else s1.wantNak n

/-- LINK_KEY[n].TX_READY: the installed transmit key is in use and the peer advertises its generation (R295). -/
def LinkKeys.txReady (k : LinkKeys) : Bool :=
  k.txNext.isNone && (match k.tx with
    | some key => k.peerKv && k.peerKg == key.kg
    | none => false)

/-- LINK_KEY[n] and the counts of SEC_KEY and SEC_ZERO follow the installed keys (R484). -/
def State.keyStatus (s : State) (n : Nat) : State :=
  let k := (s.link n).keys
  let s1 := (((s.put (F.linkKeyTxKey n) (b2n (k.tx.isSome || k.txNext.isSome))).put (F.linkKeyTxReady n)
      (b2n k.txReady)).put (F.linkKeyRxKey n) (b2n (!k.rx.isEmpty))).put (F.linkKeyRxKg n)
      ((k.rx.head?.map (·.kg)).getD 0)
  let count := fun (f : LinkKeys → Bool) => (s1.links.filter (fun l => f l.keys)).length
  let any := s1.links.find? (fun l => l.keys.tx.isSome || l.keys.txNext.isSome || !l.keys.rx.isEmpty)
  (((s1.put F.secKeyTxLinks (count LinkKeys.txReady)).put F.secKeyRxLinks (count (fun k => !k.rx.isEmpty))).put
    F.secKeyJob (if any.isSome then s1.get F.jobIdId else 0)).put F.secZeroKeysErased (b2n any.isNone)

/-- A waiting transmit key comes into use once the peer advertises its generation (R295). -/
def State.keySwitch (s : State) (n : Nat) : State :=
  let k := (s.link n).keys
  let s1 := match k.txNext with
    | some key =>
      if k.peerKv && k.peerKg == key.kg then
        (s.updKeys n (fun k => { k with tx := some key, txNext := none, xseq := 0 })).put (F.linkKeyTxKg n) key.kg
      else s
    | none => s
  s1.keyStatus n

/-- The peer's advertisement of its newest receive key (R295). -/
def State.keyAdvert (s : State) (n : Nat) (kv : Bool) (kg : Nat) : State :=
  (s.updKeys n (fun k => { k with peerKv := kv, peerKg := kg })).keySwitch n

/-- A CTRL flit whose header passed its check: its header fields are used in every state of the link (R272). -/
def State.ctrlFlit (s : State) (n : Nat) (h : W4) : State :=
  let s1 := ((s.noteRx n).useHeader n h).keyAdvert n (bit h.l2 13) (fld h.l2 14 14)
  let s2 := if bit h.l2 12 then s1.put (F.linkStatusQuietPeer n) 1 else s1
  s2.flushLimbo

/-- A flit whose record is a training record: its header passed, its record did or did not (R279). -/
def State.trainIn (s : State) (n : Nat) (t : W8) (f : State → State) : State :=
  let s1 := s.noteRx n
  if t.ok then f s1 else s1.incLink n lkHdrErr 1

/-- Where a flit can land: in E2 it is lost and wakes the engine, in E3 the link is in LP (R444, R299). -/
def State.flitIn (s : State) (f : State → State) : State :=
  let st := s.get F.clkStateState
  if st = 2 then s.startWake 3
  else if st = 3 then s
  else f (if st = 1 then s.startWake 3 else s)

/-- An arriving flit, by its header (R272). -/
def State.flitRx (s : State) (n : Nat) (h : W4) (body : List Byte) : State :=
  if !(W4.ok h) then s.badFlit n
  else
    let kind := fld h.l0 31 28
    if kind = 1 then s.dataFlit n h body
    else if kind = 2 then s.ctrlFlit n h
    else if kind = 3 then s.noteRx n
    else s.badFlit n

end Sys2Proof.Machine
end

