-- ==== Sys2Proof/Machine/Keys.lean ====
section
/-! DEFINITION. Machine/Keys.lean: the root-of-trust mailbox (R477) and the life of link keys (R295, R478). -/

namespace Sys2Proof.Machine

/-- A mailbox message: M0 to M14 and their CRC-32C. -/
def mboxMsg (op tag : Nat) (ws : List Word) : List Word :=
  let body := (at_ 24 op ||| at_ 0 (tag % 65536)) :: (ws ++ List.replicate (14 - ws.length) 0)
  body ++ [crc32c (wordsBytes body)]

/-- Send a request and hold it until it is answered (R477). -/
def State.mboxReq (s : State) (op : Nat) (ws : List Word) : State :=
  let tag := (s.mboxTag + 1) % 65536
  let s1 := s.emit (.mbox (mboxMsg op tag ws))
  { s1 with mboxTag := tag, mbox := s1.mbox ++ [⟨op, tag, s.chip.now, ws⟩] }

/-- Send a message that awaits no answer. -/
def State.mboxTell (s : State) (op : Nat) (ws : List Word) : State :=
  let tag := (s.mboxTag + 1) % 65536
  { s.emit (.mbox (mboxMsg op tag ws)) with mboxTag := tag }

def opKeyReq : Nat := 0x03
def opKeysErased : Nat := 0x04

/-- KEY_REQ for link n (R478). -/
def State.keyReq (s : State) (n : Nat) : State :=
  s.mboxReq opKeyReq
    [at_ 16 (s.get F.jobIdId) ||| at_ 0 (s.get F.rosterEpochActive),
     at_ 0 n ||| at_ 6 (s.get (F.linkPeerPeerId n))]

/-- A job runs: it has been accepted and its end is not complete. -/
def State.jobLive (s : State) : Bool := s.jobState != jsIdle && s.jobState != jsZeroising

def LinkKeys.none_ (k : LinkKeys) : LinkKeys :=
  { k with peer := none, tx := none, txNext := none, rx := [], xseq := 0, rxXseq := 0, rxKg := none, adv := false }

/-- The keys of the job are erased, and the root of trust is told (R295, R478). -/
def State.eraseKeys (s : State) : State :=
  let s1 := { s with links := s.links.map (fun l => { l with keys := l.keys.none_ }) }
  let s2 := (List.range 64).foldl (fun s n => s.put (F.linkKeyTxKg n) 0) s1
  let s3 := (List.range 64).foldl State.keyStatus s2
  s3.mboxTell opKeysErased [at_ 16 (s.get F.jobIdId)]

/-- A received mailbox message passes its CRC-32C. -/
def mboxOk (m : List Word) : Bool := m.length == 16 && crc32c (wordsBytes (m.take 15)) == m.getD 15 0

def mboxOp (m : List Word) : Nat := fld (m.getD 0 0) 31 24
def mboxTagOf (m : List Word) : Nat := fld (m.getD 0 0) 15 0

/-- The answered request leaves the outstanding list. -/
def State.mboxAnswered (s : State) (op tag : Nat) : State :=
  { s with mbox := s.mbox.filter (fun r => !(r.op == op && r.tag == tag)) }

/-- Install a key as the newest of its direction (R478). XSEQ of a new receive key starts at 0, so a running count, or the
XBASE of a training that no flit has followed, belongs to the other generation (R294). -/
def State.installKey (s : State) (n dir : Nat) (k : Key) : State :=
  let s0 := s.updKeys n (fun x => { x with peer := some (s.get (F.linkPeerPeerId n)) })
  let s1 := s0.updKeys n (fun x =>
    if dir = 0 then { x with txNext := some k }
    else { x with rx := (k :: x.rx.filter (fun y => y.kg != k.kg)).take 2,
                  adv := false
                  rxXseq := if x.rxKg = some k.kg then 0 else x.rxXseq
                  rxKg := if x.rxKg = some (1 - k.kg) then x.rxKg else some (1 - k.kg) })
  let s2 := (s1.updTx n (fun t => { t with ctrlDue := true })).keySwitch n
  (s2.inc R.secKeySetCnt 1).flushLimbo

/-- KEY_SET (R478). -/
def State.keySet (s : State) (m : List Word) : State :=
  let m1 := m.getD 1 0
  let m2 := m.getD 2 0
  let n := fld m2 5 0
  if !mboxOk m then s.inc R.secMboxErrCnt 1
  else if !s.jobLive || fld m1 31 16 != s.get F.jobIdId || !decide (n < s.nLinks) || !s.flag (F.linkPeerValid n) ||
      fld m2 21 10 != s.get (F.linkPeerPeerId n) then
    s.inc R.secMboxErrCnt 1
  else
    (s.mboxAnswered opKeyReq (mboxTagOf m)).installKey n (fld m2 8 8)
      ⟨fld m1 31 16, fld m1 15 0, fld m2 9 9, wordsBytes ((m.drop 3).take 8)⟩

end Sys2Proof.Machine
end

