-- ==== Sys2Proof/Machine/Float.lean ====
section
/-! DEFINITION. Machine/Float.lean: number formats (R128, R129), exact values, conversions (R130 to R132), shift
scaling and payloads (R133 to R136), and the binary32 arithmetic that chapters 04, 05, 06, 11 and 12 use. -/

namespace Sys2Proof.Machine

/-! ### Exact values -/

/-- A value of a floating computation: NaN, an infinity, or the dyadic number (-1)^neg × m × 2^e. A zero keeps its
sign. The payload and sign of a NaN are not kept: every NaN that the engine writes is canonical (R130 step 4). -/
inductive FV where
  | nan
  | inf (neg : Bool)
  | fin (neg : Bool) (m : Nat) (e : Int)
  deriving DecidableEq, Repr

/-- 2 to a non-negative integer exponent. -/
def pow2 (i : Int) : Nat := 2 ^ i.toNat

def FV.zero : FV := .fin false 0 0

/-- The signed integer m × 2^(e - q) for q ≤ e. -/
def signedMant (neg : Bool) (m : Nat) (sh : Int) : Int :=
  let v : Int := ((m * pow2 sh : Nat) : Int)
  if neg then -v else v

def FV.isNan : FV → Bool
  | .nan => true
  | _ => false

/-- Zero, of either sign. -/
def FV.isZero : FV → Bool
  | .fin _ 0 _ => true
  | _ => false

def FV.isFinite : FV → Bool
  | .fin _ _ _ => true
  | _ => false

def FV.neg : FV → FV
  | .nan => .nan
  | .inf s => .inf (!s)
  | .fin s m e => .fin (!s) m e

/-- The exact sum, with the IEEE 754 rule for the sign of a zero sum under round-to-nearest. -/
def FV.add : FV → FV → FV
  | .nan, _ => .nan
  | .inf _, .nan => .nan
  | .inf s, .inf t => if s = t then .inf s else .nan
  | .inf s, .fin _ _ _ => .inf s
  | .fin _ _ _, .nan => .nan
  | .fin _ _ _, .inf t => .inf t
  | .fin s m e, .fin t n f =>
    let q := min e f
    let r := signedMant s m (e - q) + signedMant t n (f - q)
    if r = 0 then .fin (if m = 0 ∧ n = 0 then s && t else false) 0 0
    else .fin (decide (r < 0)) r.natAbs q

/-- The exact product; 0 × Inf is NaN. -/
def FV.mul : FV → FV → FV
  | .nan, _ => .nan
  | .inf _, .nan => .nan
  | .inf s, .inf t => .inf (s != t)
  | .inf s, .fin t n _ => if n = 0 then .nan else .inf (s != t)
  | .fin _ _ _, .nan => .nan
  | .fin s m _, .inf t => if m = 0 then .nan else .inf (s != t)
  | .fin s m e, .fin t n f => .fin (s != t) (m * n) (e + f)

/-- The exact value times 2^k. -/
def FV.scale (v : FV) (k : Int) : FV :=
  match v with
  | .fin s m e => .fin s m (e + k)
  | v => v

/-- A quotient with enough bits and a sticky bit below them, so that one rounding of it is the rounding of the
exact quotient. -/
def FV.quot : FV → FV → FV
  | .nan, _ => .nan
  | .inf _, .nan => .nan
  | .inf _, .inf _ => .nan
  | .inf s, .fin t _ _ => .inf (s != t)
  | .fin _ _ _, .nan => .nan
  | .fin s _ _, .inf t => .fin (s != t) 0 0
  | .fin s m e, .fin t n f =>
    if n = 0 then (if m = 0 then .nan else .inf (s != t))
    else
      let k := 64 + Nat.log2 n
      let q := (m * 2 ^ k) / n
      let r := (m * 2 ^ k) % n
      .fin (s != t) (2 * q + (if r = 0 then 0 else 1)) (e - f - (k : Int) - 1)

/-- Strictly less, for values that are not NaN. -/
def FV.lt : FV → FV → Bool
  | .nan, _ => false
  | _, .nan => false
  | .inf s, .inf t => s && !t
  | .inf s, .fin _ _ _ => s
  | .fin _ _ _, .inf t => !t
  | .fin s m e, .fin t n f =>
    let q := min e f
    decide (signedMant s m (e - q) < signedMant t n (f - q))

/-- floor(log2 |v|) of a finite non-zero value (R133). -/
def FV.flog2 : FV → Int
  | .fin _ m e => (Nat.log2 m : Int) + e
  | _ => 0

def FV.ofInt (i : Int) : FV := .fin (decide (i < 0)) i.natAbs 0

/-! ### Formats (R128) -/

/-- A floating format: exponent and mantissa widths, bias, the greatest finite magnitude code, the Inf code where
there is one, the NaN codes and the canonical NaN. -/
structure FloatFmt where
  ebits : Nat
  mbits : Nat
  bias : Nat
  maxMag : Nat
  infMag : Option Nat
  /-- least magnitude code that is a NaN -/
  nanFrom : Option Nat
  canonNan : Option Nat
  emax : Int
  deriving DecidableEq, Repr

def FloatFmt.width (f : FloatFmt) : Nat := 1 + f.ebits + f.mbits

def fp32Fmt : FloatFmt := ⟨8, 23, 127, 0x7F7FFFFF, some 0x7F800000, some 0x7F800001, some 0x7FC00000, 127⟩
def bf16Fmt : FloatFmt := ⟨8, 7, 127, 0x7F7F, some 0x7F80, some 0x7F81, some 0x7FC0, 127⟩
def fp16Fmt : FloatFmt := ⟨5, 10, 15, 0x7BFF, some 0x7C00, some 0x7C01, some 0x7E00, 15⟩
def e4m3Fmt : FloatFmt := ⟨4, 3, 7, 0x7E, none, some 0x7F, some 0x7F, 8⟩
def e5m2Fmt : FloatFmt := ⟨5, 2, 15, 0x7B, some 0x7C, some 0x7D, some 0x7F, 15⟩
def e3m2Fmt : FloatFmt := ⟨3, 2, 3, 0x1F, none, none, none, 4⟩
def e2m3Fmt : FloatFmt := ⟨2, 3, 1, 0x1F, none, none, none, 2⟩
def e2m1Fmt : FloatFmt := ⟨2, 1, 1, 0x7, none, none, none, 2⟩

/-- What a FMT code names (R128). -/
inductive Fmt where
  | flt (f : FloatFmt)
  | int (bits : Nat)
  | uint (bits : Nat)
  | reserved
  deriving DecidableEq, Repr

def fmtOf : Nat → Fmt
  | 0x0 => .flt fp32Fmt
  | 0x1 => .flt bf16Fmt
  | 0x2 => .flt fp16Fmt
  | 0x3 => .flt e4m3Fmt
  | 0x4 => .flt e5m2Fmt
  | 0x5 => .flt e3m2Fmt
  | 0x6 => .flt e2m3Fmt
  | 0x7 => .flt e2m1Fmt
  | 0x8 => .int 32
  | 0x9 => .int 16
  | 0xA => .int 8
  | 0xB => .uint 8
  | 0xC => .int 4
  | 0xD => .uint 4
  | 0xE => .int 24
  | _ => .reserved

/-- Element width in bits (R128). -/
def fmtBits (c : Nat) : Nat :=
  match fmtOf c with
  | .flt f => f.width
  | .int b => b
  | .uint b => b
  | .reserved => 0

/-- The column emax of R128. -/
def fmtEmax (c : Nat) : Int :=
  match fmtOf c with
  | .flt f => f.emax
  | .int b => (b : Int) - 2
  | _ => 0

/-- The value of a code of a floating format. -/
def FloatFmt.decode (f : FloatFmt) (c : Nat) : FV :=
  let mag := c % 2 ^ (f.ebits + f.mbits)
  let s := decide (1 ≤ c / 2 ^ (f.ebits + f.mbits) % 2)
  if (match f.nanFrom with | some n => decide (n ≤ mag) | none => false) then .nan
  else if some mag = f.infMag then .inf s
  else
    let ef := mag / 2 ^ f.mbits
    let mf := mag % 2 ^ f.mbits
    if ef = 0 then .fin s mf (1 - (f.bias : Int) - f.mbits)
    else .fin s (2 ^ f.mbits + mf) ((ef : Int) - f.bias - f.mbits)

/-- The value of a code (R128); the UINT formats give the raw code, their zero point is taken off by R76. -/
def fmtDecode (fmt c : Nat) : FV :=
  match fmtOf fmt with
  | .flt f => f.decode c
  | .int b => .ofInt (signed b (c % 2 ^ b))
  | .uint b => .ofInt ((c % 2 ^ b : Nat) : Int)
  | .reserved => .nan

/-- What R132 counts of one conversion. -/
structure ConvEv where
  sat : Nat := 0
  unf : Nat := 0
  nan : Nat := 0
  deriving DecidableEq, Repr

def ConvEv.add (a b : ConvEv) : ConvEv := ⟨a.sat + b.sat, a.unf + b.unf, a.nan + b.nan⟩

/-- Round m × 2^sh to the nearest integer, ties to even. -/
def rneShift (m : Nat) (sh : Int) : Nat :=
  if 0 ≤ sh then m * pow2 sh
  else
    let d := pow2 (-sh)
    let q := m / d
    let r := m % d
    if 2 * r < d then q else if d < 2 * r then q + 1 else q + q % 2

/-- R130: a real value to a floating format; `sat` selects step 2's saturation. -/
def FloatFmt.encode (f : FloatFmt) (sat : Bool) (v : FV) : Nat × ConvEv :=
  let signBit (s : Bool) : Nat := if s then 2 ^ (f.ebits + f.mbits) else 0
  let ovf (s : Bool) : Nat :=
    if sat then signBit s + f.maxMag
    else match f.infMag with
      | some i => signBit s + i
      | none => match f.canonNan with
        | some n => signBit s + n
        | none => signBit s + f.maxMag
  match v with
  | .nan => ((match f.canonNan with | some n => n | none => 0), { nan := 1 })
  | .inf s => (ovf s, { sat := 1 })
  | .fin s 0 _ => (signBit s, {})
  | .fin s m e =>
    let sub : Int := 1 - (f.bias : Int) - f.mbits
    let q := max ((Nat.log2 m : Int) + e - f.mbits) sub
    let n := rneShift m (e - q)
    let mag := (q - sub).toNat * 2 ^ f.mbits + n
    if n = 0 then (signBit s, { unf := 1 })
    else if f.maxMag < mag then (ovf s, { sat := 1 })
    else (signBit s + mag, {})

/-- R131: a real value to the two's complement integer format of `b` bits. -/
def intEncode (b : Nat) (v : FV) : Nat × ConvEv :=
  let lo : Int := -((2 ^ (b - 1) : Nat) : Int)
  let hi : Int := ((2 ^ (b - 1) : Nat) : Int) - 1
  match v with
  | .nan => (0, { nan := 1 })
  | .inf true => (unsigned b lo, { sat := 1 })
  | .inf false => (unsigned b hi, { sat := 1 })
  | .fin s m e =>
    let n := rneShift m e
    let i : Int := if s then -(n : Int) else n
    if i < lo then (unsigned b lo, { sat := 1 })
    else if hi < i then (unsigned b hi, { sat := 1 })
    else (unsigned b i, { unf := if n = 0 ∧ m ≠ 0 then 1 else 0 })

/-- A conversion to any format that R130 and R131 cover. -/
def fmtEncode (fmt : Nat) (sat : Bool) (v : FV) : Nat × ConvEv :=
  match fmtOf fmt with
  | .flt f => f.encode sat v
  | .int b => intEncode b v
  | _ => (0, {})

/-! ### Binary32 arithmetic: values are 32-bit codes -/

/-- rne: one rounding to binary32 (chapter 05, Score functions). -/
def rne32 (v : FV) : Nat := (fp32Fmt.encode false v).1

def dec32 (c : Nat) : FV := fp32Fmt.decode c

def add32 (a b : Nat) : Nat := rne32 ((dec32 a).add (dec32 b))

def sub32 (a b : Nat) : Nat := rne32 ((dec32 a).add (dec32 b).neg)

def mul32 (a b : Nat) : Nat := rne32 ((dec32 a).mul (dec32 b))

def div32 (a b : Nat) : Nat := rne32 ((dec32 a).quot (dec32 b))

/-- IEEE 754 fusedMultiplyAdd (R313). -/
def fma32 (a b c : Nat) : Nat := rne32 (((dec32 a).mul (dec32 b)).add (dec32 c))

def isNan32 (c : Nat) : Bool := (dec32 c).isNan

def isFinite32 (c : Nat) : Bool := (dec32 c).isFinite

def one32 : Nat := 0x3F800000

/-- Fixed-point fraction bits of the exponential. -/
def expBits : Nat := 256

/-- The Taylor sum of e^t in fixed point: `n` terms from index `i`, the current term `t`. -/
def expTaylor : Nat → Nat → Int → Int → Int → Int
  | 0, _, _, _, acc => acc
  | n + 1, i, x, t, acc =>
    let t' := (t * x) / ((2 ^ expBits : Nat) : Int) / ((i : Nat) : Int)
    expTaylor n (i + 1) x t' (acc + t')

def squareTimes : Nat → Nat → Nat
  | 0, v => v
  | n + 1, v => squareTimes n (v * v / 2 ^ expBits)

/-- e^x for |x| ≤ 104 as a fixed-point number with `expBits` fraction bits (PRESUMED: within far less than the
distance to the rounding boundary; assumption row 41). -/
def expFixed (s : Bool) (m : Nat) (e : Int) : Nat :=
  let x : Int := signedMant s m (e + (expBits : Int))
  let t := x / 256
  let one : Int := ((2 ^ expBits : Nat) : Int)
  squareTimes 8 (expTaylor 60 1 t one one).toNat

/-- exp_rn (chapter 05): e^x rounded to binary32; used on x ≤ 0 and NaN only. -/
def exp32 (c : Nat) : Nat :=
  match dec32 c with
  | .nan => 0x7FC00000
  | .inf true => 0
  | .inf false => 0x7F800000
  | .fin s m e =>
    if m = 0 then one32
    else if FV.lt (.fin s m e) (.fin true 104 0) then 0
    else if FV.lt (.fin false 104 0) (.fin s m e) then 0x7F800000
    else rne32 (.fin false (2 * expFixed s m e + 1) (-(expBits : Int) - 1))

/-- sig_rn (chapter 05): 1 / (1 + e^(-x)) rounded to binary32. -/
def sig32 (c : Nat) : Nat :=
  match dec32 c with
  | .nan => 0x7FC00000
  | .inf true => 0
  | .inf false => one32
  | .fin s m e =>
    if m = 0 then 0x3F000000
    else if FV.lt (.fin s m e) (.fin true 104 0) then 0
    else if FV.lt (.fin false 104 0) (.fin s m e) then one32
    else
      let one := 2 ^ expBits
      if s then
        let y := expFixed true m e
        rne32 ((FV.fin false y 0).quot (.fin false (one + y) 0))
      else
        let y := expFixed true m e
        rne32 ((FV.fin false one 0).quot (.fin false (one + y) 0))

/-- R108: the comparison order of selection, on binary32 codes and indices. -/
def ranksAbove (a b : Nat × Nat) : Bool :=
  let va := dec32 a.1
  let vb := dec32 b.1
  if va.isNan && vb.isNan then decide (a.2 < b.2)
  else if vb.isNan then true
  else if va.isNan then false
  else if FV.lt vb va then true
  else if FV.lt va vb then false
  else decide (a.2 < b.2)

/-! ### Packing (R129): every width is a little-endian bit stream over groups of whole bytes -/

/-- Elements per group of whole bytes. -/
def packGroup (w : Nat) : Nat := if w = 6 then 4 else if w = 4 then 2 else 1

def joinBits (w : Nat) : List Nat → Nat
  | [] => 0
  | c :: r => c % 2 ^ w + 2 ^ w * joinBits w r

def splitBits (w : Nat) : Nat → Nat → List Nat
  | 0, _ => []
  | n + 1, v => v % 2 ^ w :: splitBits w n (v / 2 ^ w)

def packCodes (w : Nat) (cs : List Nat) : List Byte :=
  let g := packGroup w
  (chunksOf g cs.length cs).flatMap (fun c => leBytes (g * w / 8) (joinBits w c))

def unpackGroups (w : Nat) : Nat → List Byte → List Nat
  | 0, _ => []
  | n + 1, bs =>
    let g := packGroup w
    let k := g * w / 8
    splitBits w g (leNat (bs.take k)) ++ unpackGroups w n (bs.drop k)

/-- The `n` element codes at the front of a byte string. -/
def unpackCodes (w n : Nat) (bs : List Byte) : List Nat :=
  (unpackGroups w (ceilDiv n (packGroup w)) bs).take n

/-- Bytes of `n` packed elements. -/
def elemBytes (fmt n : Nat) : Nat := ceilDiv (n * fmtBits fmt) 8

/-- R136: payload bytes before padding. -/
def payloadRaw (fmt : Nat) (block : Bool) (h : Nat) : Nat := elemBytes fmt h + (if block then h / 32 else 0)

/-- R136: payload bytes, padded. -/
def payloadBytes (fmt : Nat) (block : Bool) (h : Nat) : Nat := pad16 (payloadRaw fmt block h)

/-! ### Shift scaling (R133 to R135) -/

/-- The largest magnitude of the finite elements; zero where there is none. -/
def amaxOf (vs : List FV) : FV :=
  vs.foldl (fun a v => match v with
    | .fin _ m e => if FV.lt a (.fin false m e) then .fin false m e else a
    | _ => a) FV.zero

/-- R133: the block shift of one block. -/
def blockShift (fmt : Nat) (o : Int) (vs : List FV) : Int :=
  let a := amaxOf vs
  let xb := if a.isZero then o else a.flog2 - fmtEmax fmt + o
  min (max xb (-127)) 127

def convAll (fmt : Nat) (sat : Bool) (k : Int) (vs : List FV) : List Nat × ConvEv :=
  let rs := vs.map (fun v => fmtEncode fmt sat (v.scale (-k)))
  (rs.map (·.1), rs.foldl (fun a r => a.add r.2) {})

/-- R133, R134: the codes and shift bytes of a vector. -/
def shiftConvert (fmt : Nat) (block sat : Bool) (o : Int) (vs : List FV) : List Nat × List Nat × ConvEv :=
  if block then
    (chunksOf 32 vs.length vs).foldl (fun acc b =>
      let xb := blockShift fmt o b
      let r := convAll fmt sat xb b
      (acc.1 ++ r.1, acc.2.1 ++ [(xb + 127).toNat], acc.2.2.add r.2)) ([], [], {})
  else
    let r := convAll fmt sat o vs
    (r.1, [], r.2)

/-- R136: a payload, with what its conversions count. -/
def encodePayload (fmt : Nat) (block sat : Bool) (o : Int) (vs : List FV) : List Byte × ConvEv :=
  let r := shiftConvert fmt block sat o vs
  (padded16 (packCodes (fmtBits fmt) r.1 ++ r.2.1.map (fun b => BitVec.ofNat 8 b)), r.2.2)

/-- R135: the value of one element under a shift byte. -/
def shiftDecode (fmt code shift : Nat) : FV :=
  if shift = 0xFF then .nan else (fmtDecode fmt code).scale ((shift : Int) - 127)

/-- R135: the values of a payload of `h` elements. -/
def decodePayload (fmt : Nat) (block : Bool) (o : Int) (h : Nat) (bs : List Byte) : List FV :=
  let codes := unpackCodes (fmtBits fmt) h bs
  if block then
    let sh := (bs.drop (elemBytes fmt h)).map (fun b => b.toNat)
    codes.mapIdx (fun i c => shiftDecode fmt c (sh.getD (i / 32) 0))
  else codes.map (fun c => (fmtDecode fmt c).scale o)

/-! ### The formats each unit accepts (R128's table) -/

def isHsFmt (f : Nat) : Bool := decide (f ≤ 2)

def isGateFmt (f : Nat) : Bool :=
  f == 1 || f == 2 || f == 3 || f == 4 || f == 7 || f == 0xA || f == 0xB || f == 0xC || f == 0xD

def gateBlockOk (f : Nat) : Bool := f == 3 || f == 4 || f == 7

def isDispFmt (f : Nat) : Bool := decide (f ≤ 7) || f == 0xA || f == 0xC

def dispBlockOk (f : Nat) : Bool := decide (3 ≤ f ∧ f ≤ 7) || f == 0xA || f == 0xC

def isCombFmt (f : Nat) : Bool := decide (f ≤ 4)

def combBlockOk (f : Nat) : Bool := f == 3 || f == 4

end Sys2Proof.Machine
end

