-- ==== Sys2Proof/Machine/Train.lean ====
section
/-! DEFINITION. Machine/Train.lean: link training, recovery, death and RESYNC (R278 to R285), and the link timers. -/

namespace Sys2Proof.Machine

/-! ### States -/

def State.setPhase (s : State) (n p : Nat) : State :=
  if s.linkState n = lsRecover then s.updTrain n (fun t => { t with sub := p }) else s.put (F.linkStatusState n) p

/-- LANES is left for HELLO once all four lanes are up and no idle hold runs (R278). -/
def State.tryHello (s : State) (n : Nat) : State :=
  if s.phase n = lsLanes ∧ s.lanesUp n ∧ (s.link n).train.hold = none then
    (s.setPhase n lsHello).updTrain n (fun t => { t with ackSent := false, ackGot := false, helloAt := 0 })
  else s

/-- The training records in the queue that a test names go. -/
def State.dropTrain (s : State) (n : Nat) (gone : W8 → Bool) : State :=
  s.updTx n (fun x => { x with trainQ := x.trainQ.filter (fun t => !gone t) })

/-- Enter LANES (R278): the miswire mark of R280 clears, and no record of the training that ended is sent (R33, R280). -/
def State.toLanes (s : State) (n : Nat) : State :=
  let s1 := (((s.dropTrain n (fun _ => true)).setPhase n lsLanes).put (F.linkStatusMiswire n) 0).updTrain n (fun t =>
    { t with idleReq := false, lpReq := false, hold := none, lanesAt := s.chip.now, ackSent := false, ackGot := false })
  s1.tryHello n

/-- A HELLO_ACK record. -/
def isHelloAck (t : W8) : Bool := fld t.w0 31 28 == 2

/-- The sequence state of a fresh training (R268, R271): SEQ 0, no retry buffer, no counts. An answer to a HELLO that still waits
for a slot stays (R280). -/
def State.freshSeq (s : State) (n : Nat) : State :=
  let s1 := s.updTx n (fun t =>
    { t with seq := 0, retry := [], resend := 0, episodes := 0, credits := [0, 0, 0, 0], lastCr := [0, 0, 0, 0],
             stallAt := [none, none, none, none], ctrlDue := false, nakDue := false, aliveDue := false })
  (s1.dropTrain n (fun t => !isHelloAck t)).updRx n (fun r => { r with x := 0, freed := [0, 0, 0, 0], nakAt := none })

/-! ### DEAD and RESYNC (R283 to R285) -/

/-- A management record (R285). -/
def resyncRec (dead peerLink x cmid : Nat) : List Byte :=
  sealWords [at_ 28 1 ||| at_ 22 dead ||| at_ 16 peerLink ||| at_ 0 x, at_ 0 cmid, 0]

/-- Bytes of a relayed packet in all, by the length in its first header; at least one byte is still to come. -/
def TxPkt.relayTotal (p : TxPkt) : Nat :=
  max (32 * p.nhdr + 16 * fld (wordAt p.bytes 0) 19 0) (p.bytes.length + 1)

/-- The rest of a relayed packet is zeros, with PAB on its EOP flit (R290). -/
def TxPkt.zeroRest (p : TxPkt) : TxPkt :=
  { p with bytes := padTo p.relayTotal p.bytes, whole := true, pab := true }

/-- The outbound packet that relays VC v of link n, over link o, is completed. -/
def State.relayCut (s : State) (n v o : Nat) : State :=
  s.updTx o (fun t => { t with q := updAt t.q v (fun q => q.map (fun p =>
    if p.relay = some n ∧ !p.whole then p.zeroRest else p)) })

/-- The token headers of the packet that link o relays for VC v of link n have all come in. -/
def State.relayHdrsIn (s : State) (n v o : Nat) : Bool :=
  ((s.link o).tx.q.getD v []).any (fun p =>
    decide (p.relay = some n) && !p.whole && decide (1 ≤ p.nhdr) && decide (32 * p.nhdr ≤ p.bytes.length))

/-- A partly received packet when its link dies: abandoned and counted when its headers are in, else discarded, and nothing of it
counts (R283 steps 1 and 2); one that is discarded as it arrives, or of VC0, is discarded (R284). -/
def State.deadPartial (s : State) (n v : Nat) : State :=
  match s.rxOpen n v with
  | none => s
  | some (i, p) =>
    let q := s.rxq n v
    match p.relay with
    | some o =>
      let s1 := (if o < 64 then s.relayCut n v o else s).setRxq n v (q.eraseIdx i)
      if o < 64 ∧ v ≠ 0 ∧ s.relayHdrsIn n v o then s1.incLink n lkAbandon 1 else s1
    | none =>
      if v ≠ 0 ∧ p.hdrsIn then
        (s.setRxq n v (q.set i { p with whole := true, pab := true, places := 0 })).incLink n lkAbandon 1
      else s.setRxq n v (q.eraseIdx i)

/-- The whole packets still held, and the relayed ones that wait on other links, give their places up with the buffer's
counts (R283 step 3). -/
def State.clearPlaces (s : State) (n : Nat) : State :=
  let s1 := s.updRx n (fun r => { r with q := r.q.map (fun q => q.map (fun p => { p with places := 0 })) })
  { s1 with links := s1.links.map (fun (l : Link) => { l with tx := { l.tx with q := l.tx.q.map (fun q => q.map (fun p =>
    if p.relay = some n then { p with held := 0 } else p)) } }) }

/-- The unsent flits of relayed packets are discarded, and their places are free again (R269). -/
def State.freeHeld (s : State) (ps : List TxPkt) : State :=
  ps.foldl (fun t p => match p.relay with
    | some m => if p.held = 0 then t else t.freePlaces m p.vc p.held
    | none => t) s

/-- What the transmit side of link n keeps of a packet: its descriptor and token headers, and all of a VC0 or VC1 packet, whose
payload is read out of the Hive (R167, R186). -/
def State.keepDesc (s : State) (n : Nat) (p0 : TxPkt) : TxPkt × State :=
  let (s1, p) := if p0.vc ≤ 1 then s.readPay n p0 else (s, p0)
  (s1.retain p, (match p0.pay with
    | some (h, _) => s1.release h (n / 2) p0.slots.head?
    | none => s1).freeSlots p0.slots)

def State.keepAll (s : State) (n : Nat) : List TxPkt → List TxPkt × State
  | [] => ([], s)
  | p :: ps =>
    let (r, s1) := s.keepDesc n p
    let (rs, s2) := s1.keepAll n ps
    (r :: rs, s2)

/-- Entry to DEAD, and at once to LANES (R278, R283). -/
def State.enterDead (s : State) (n : Nat) : State :=
  let x := (s.link n).rx.x
  let peer := s.get (F.linkPeerPeerId n)
  let s1 := ((s.put (F.linkStatusState n) lsDead).incLink n lkDead 1)
  let s2 := (([0, 1, 2, 3] : List Nat).foldl (fun s v => s.deadPartial n v) s1).clearPlaces n
  let t := (s2.link n).tx
  let unsent := t.q.flatten.filter (fun p => p.relay.isNone || decide (32 * p.nhdr ≤ p.bytes.length))
  let (kept, s3) := (s2.freeHeld t.q.flatten).keepAll n unsent
  let s4 := s3.updTx n (fun t => { t with q := [[], [], [], []], flight := [], retained := t.retained ++ t.flight ++ kept })
  let s5 := ((s4.freshSeq n).dropTrain n (fun _ => true)).put (F.linkStatusResyncWait n) (b2n (!(s4.link n).tx.retained.isEmpty))
  let s6 := s5.updTrain n (fun t => { t with resume := false })
  let rec_ : TxPkt := { TxPkt.own 0 peer 0 (resyncRec n (s.get (F.linkPeerPeerLink n)) x s.cmid) none [] with mg := true }
  let s7 := (s6.put (F.linkStatusState n) lsLanes).toLanes n
  if s.flag (F.linkPeerValid n) then s7.sendPkt rec_ else s7

/-- The peer has, or has completed, a retained packet (R284): its header bytes went out in flits before the peer's X. A VC0 packet
that arrived in part is discarded by its receiver, so of one all bytes must have. -/
def TxPkt.hdrsBefore (p : TxPkt) (x : Nat) : Bool :=
  let fl := if p.vc = 0 then ceilDiv p.bytes.length 240 else ceilDiv (32 * p.nhdr) 240
  match p.seqs[fl - 1]? with
  | some q => decide (1 ≤ fl) && before 12 q x
  | none => false

/-- The headers of a VC2 or VC3 packet with POISON set and payload length 0 (R210, R216). -/
def stubHdrs : Nat → List Byte → List Byte
  | 0, _ => []
  | k + 1, bs =>
    let h := W8.ofBytes bs
    (({ h with w0 := setFld (setFld h.w0 19 0 0) 22 22 1 } : W8).sealed).bytes ++ stubHdrs k (bs.drop 32)

/-- A retained packet of the dead link d when the peer's RESYNC arrives (R284); a relayed one keeps its hops, and one of VC0
or VC1 that never arrived whole here has nothing left to send. -/
def State.resyncOne (s : State) (d x : Nat) (p : TxPkt) : State :=
  if p.hdrsBefore x then s
  else if 2 ≤ p.vc then
    s.sendPkt { TxPkt.own p.vc p.dst p.nhdr (stubHdrs p.nhdr p.bytes) none [] with hops := p.hops, avoid := some d }
  else if !p.whole then s
  else s.sendPkt { TxPkt.own p.vc p.dst p.nhdr p.bytes none [] with mg := p.mg, fire := p.fire, hops := p.hops }

/-- The retained packets of the links toward a lost package are released (R284). -/
def State.dropRetained (s : State) (peer : Nat) : State :=
  (List.range s.nLinks).foldl (fun t n =>
    if t.get (F.linkPeerPeerId n) = peer && !(t.link n).tx.retained.isEmpty then
      (t.updTx n (fun x => { x with retained := [] })).put (F.linkStatusResyncWait n) 0
    else t) s

/-- The RESYNC record at the head of VC0 of link n acts on the dead link it names (R284, R285). -/
def State.resync (s : State) (n : Nat) : State :=
  match s.rxq n 0 with
  | [] => s
  | p :: _ =>
    if !p.mg || !p.whole then s
    else
      let m0 := wordAt p.bytes 0
      let d := fld m0 21 16
      let s1 := s.rxRemove n 0 0
      if s.get (F.linkPeerPeerId d) = fld (wordAt p.bytes 1) 11 0 ∧ s.get (F.linkPeerPeerLink d) = fld m0 27 22 then
        let kept := (s1.link d).tx.retained
        let s2 := (s1.updTx d (fun t => { t with retained := [] })).put (F.linkStatusResyncWait d) 0
        kept.foldl (fun s p => s.resyncOne d (fld m0 11 0) p) s2
      else s1

/-! ### Training records (R279) -/

/-- The own record of a kind. -/
def State.trainRec (s : State) (n top : Nat) : W8 :=
  let l := s.link n
  let x := l.keys.xseq
  { w0 := at_ 28 top ||| at_ 22 n ||| at_ 21 (b2n s.fuses.e24) ||| at_ 20 (b2n l.train.resume) ||| at_ 0 s.cmid
    w1 := s.word (R.linkVcbuf n)
    w2 := BitVec.ofNat 32 x
    w3 := BitVec.ofNat 32 (x / 2 ^ 32)
    w4 := 0
    w5 := if l.train.resume then at_ 0 l.rx.x else 0
    w6 := 0
    w7 := 0 }

def State.queueTrain (s : State) (n : Nat) (t : W8) : State := s.updTx n (fun x => { x with trainQ := x.trainQ ++ [t] })

/-- ACTIVE: the link serves packets again, keys are asked for unless one is installed for this peer (R478), and held packets try
their routes. -/
def State.toActive (s : State) (n : Nat) : State :=
  let s1 := (s.put (F.linkStatusState n) lsActive).updTx n (fun t => { t with ctrlDue := true, quiet := false, lastCtrl := s.chip.now })
  let s2 := (s1.updRx n (fun r => { r with lastRx := s.chip.now })).updTrain n (fun t => { t with resume := false, echoAt := s.chip.now })
  let held := (s2.link n).keys.peer == some (s2.get (F.linkPeerPeerId n))
  (if s2.jobLive && !held then s2.keyReq n else s2).flushLimbo

/-- The peer's XBASE of a fresh training counts the flits under its current transmit key (R294). The peer cannot have switched to a
receive key that this side has not advertised (R295): then XBASE is of the other generation, and that key's count stays at 0.
Otherwise the first flit says the generation (assumption row 116). -/
def LinkKeys.rebase (k : LinkKeys) (xbase : Nat) : LinkKeys :=
  { k with rxXseq := xbase, rxKg := if k.adv then none else k.rxKg }

/-- HELLO is complete (R280, R282): ECHO after a fresh training, ACTIVE when both sides resume, DEAD when one does. -/
def State.helloDone (s : State) (n : Nat) : State :=
  let t := (s.link n).train
  if t.resume && t.peerResume then
    let k := ((s.link n).tx.retry.filter (fun r => after 12 r.seq t.peerX)).length
    let s1 := s.takeAck n (t.peerX + 4095)
    (s1.updTx n (fun x => { x with resend := k, episodes := 0, oldestAt := s.chip.now })).toActive n
  else if t.resume || t.peerResume then s.enterDead n
  else
    let s1 := s.freshSeq n
    (s1.updKeys n (fun k => k.rebase t.peerXbase)).updTrain n
      (fun t => { t with echoes := [], echoSent := 0, echoAt := 0 }) |>.put (F.linkStatusState n) lsEcho

/-- The credits of a fresh training: the places the peer advertised (R268). -/
def State.takePlaces (s : State) (n : Nat) : State :=
  let t1 := (s.link n).train.peerPlaces
  s.updTx n (fun t => { t with credits := ([0, 1, 2, 3] : List Nat).map (fun v => fld t1 (8 * v + 7) (8 * v)) })

/-- Record the peer of a HELLO or HELLO_ACK (R280); a changed peer asks for keys (R478). -/
def State.notePeer (s : State) (n : Nat) (t : W8) : State :=
  let w := at_ 31 1 ||| at_ 30 (fld t.w0 21 21) ||| at_ 18 (fld t.w0 27 22) ||| at_ 0 (fld t.w0 11 0)
  let old := s.word (R.linkPeer n)
  let s1 := s.setWord (R.linkPeer n) w
  let s2 := s1.updTrain n (fun x => { x with peerResume := bit t.w0 20, peerX := fld t.w5 11 0, peerPlaces := t.w1,
                                             peerXbase := t.w2.toNat + 2 ^ 32 * t.w3.toNat })
  if old ≠ w ∧ s2.jobLive then s2.keyReq n else s2

/-- R280's comparison of the peer with what is expected, and with the package's own id. -/
def State.peerOk (s : State) (n : Nat) (t : W8) : Bool :=
  fld t.w0 11 0 != s.cmid &&
    (!s.flag (F.linkCtlExpEn n) ||
      (fld t.w0 11 0 == s.get (F.linkCtlExpPeer n) && fld t.w0 27 22 == s.get (F.linkCtlExpLink n)))

/-- Leave HELLO once HELLO_ACK has been sent and received. -/
def State.helloTry (s : State) (n : Nat) : State :=
  let x := (s.link n).train
  if s.phase n = lsHello ∧ x.ackSent ∧ x.ackGot ∧ !s.flag (F.linkStatusMiswire n) then
    let fresh := !x.resume && !x.peerResume
    let s1 := s.helloDone n
    if fresh then s1.takePlaces n else s1
  else s

/-- A received HELLO (R280): its answer waits for a slot; in ECHO it is answered again, for a peer whose HELLO_ACK was lost. From a
mismatch on no HELLO_ACK leaves, one that waits for its slot among them. -/
def State.helloRx (s : State) (n : Nat) (t : W8) : State :=
  if s.phase n = lsHello then
    let s1 := s.notePeer n t
    if s.peerOk n t && !s.flag (F.linkStatusMiswire n) then
      s1.queueTrain n (s1.trainRec n 2)
    else (s1.dropTrain n isHelloAck).put (F.linkStatusMiswire n) 1
  else if s.phase n = lsEcho && s.peerOk n t then s.queueTrain n (s.trainRec n 2)
  else s

/-- A received HELLO_ACK (R280). -/
def State.helloAckRx (s : State) (n : Nat) (t : W8) : State :=
  if s.phase n = lsHello && s.peerOk n t && !s.flag (F.linkStatusMiswire n) then
    ((s.notePeer n t).updTrain n (fun x => { x with ackGot := true })).helloTry n
  else s

/-- A received ECHO_REQ is answered at once; T6 holds the receipt cycle until the slot is granted (R281). -/
def State.echoReqRx (s : State) (n : Nat) (t : W8) (cyc : Nat) : State :=
  if s.phase n = lsEcho ∨ s.phase n = lsActive then
    s.queueTrain n { s.trainRec n 4 with w4 := t.w4, w6 := BitVec.ofNat 32 cyc }
  else s

/-- A received ECHO_RSP gives a round trip; the sixteenth of ECHO brings ACTIVE (R281). DESIGN CHOICE (assumption row 96): a round
trip above 65,535 cycles, which RTT's 16 bits do not hold, counts as 65,535. -/
def State.echoRspRx (s : State) (n : Nat) (t : W8) (cyc : Nat) : State :=
  if s.phase n = lsEcho ∨ s.phase n = lsActive then
    let rtt := min 65535 (BitVec.ofNat 32 cyc - t.w4 - t.w6).toNat
    let es := (rtt :: (s.link n).train.echoes).take 16
    let least := es.foldl min 65535
    let s1 := s.updTrain n (fun x => { x with echoes := es })
    if es.length < 16 then s1
    else
      let s2 := (s1.put (F.linkRttRtt n) least).put (F.linkRttDelay n) (least / 2)
      if s.phase n = lsEcho then s2.toActive n else s2
  else s

/-! ### Timers -/

/-- HELLO once per microsecond (R280). -/
def State.helloTimer (s : State) (n : Nat) : State :=
  let t := (s.link n).train
  if s.phase n = lsHello ∧ (t.helloAt = 0 ∨ t.helloAt + 1000 ≤ s.chip.now) then
    (s.queueTrain n (s.trainRec n 1)).updTrain n (fun x => { x with helloAt := max 1 s.chip.now })
  else s

/-- ECHO_REQ once per microsecond in ECHO, 16 in all, and every 100 ms while ACTIVE (R281). -/
def State.echoTimer (s : State) (n : Nat) : State :=
  let t := (s.link n).train
  let ph := s.phase n
  let gap := if ph = lsEcho then 1000 else 100000000
  if (ph = lsActive ∨ (ph = lsEcho ∧ t.echoSent < 16)) ∧ ((ph = lsEcho ∧ t.echoSent = 0) ∨ t.echoAt + gap ≤ s.chip.now) then
    (s.queueTrain n (s.trainRec n 3)).updTrain n (fun x => { x with echoAt := s.chip.now, echoSent := x.echoSent + 1 })
  else s

/-- TRAIN_MS without HELLO: the lanes are held idle for 1 ms (R278). -/
def State.trainTimeout (s : State) (n : Nat) : State :=
  let t := (s.link n).train
  if s.phase n = lsLanes ∧ t.hold = none ∧
      t.lanesAt + 1000000 * s.slotGet (F.linkTmo2TrainMs n) ≤ s.chip.now then
    s.updTrain n (fun x => { x with idleReq := true, hold := some s.chip.now })
  else s

/-- The 1 ms idle hold ends, and LANES starts again (R278). -/
def State.holdEnd (s : State) (n : Nat) : State :=
  match (s.link n).train.hold with
  | some t0 => if t0 + 1000000 ≤ s.chip.now ∧ s.phase n = lsLanes then s.toLanes n else s
  | none => s

/-- lnk_lane_up[n] changes (R278, R282). DESIGN CHOICE (assumption row 96): in LANES a drop changes nothing, and TRAIN_MS runs on. -/
def State.laneChange (s : State) (n lanes : Nat) : State :=
  let s1 := s.put (F.linkStatusLanesUp n) lanes
  if lanes % 16 = 15 then s1.tryHello n
  else
    let ph := s1.phase n
    if ph = lsHello ∨ ph = lsEcho then s1.toLanes n
    else if ph = lsActive then (s1.dropTrain n (fun _ => true)).enterRecover n
    else s1

/-- The retry timer (R273). -/
def State.retryTimeout (s : State) (n : Nat) : State :=
  let t := (s.link n).tx
  if s.linkState n = lsActive ∧ !t.retry.isEmpty ∧
      t.oldestAt + 1000 * max 1 (s.slotGet (F.linkTmoRetryUs n)) ≤ s.chip.now then s.goBack n lkRetryTmo
  else s

/-- No valid flit for ALIVE_US, unless the peer has sent QUIET (R275). -/
def State.aliveTimeout (s : State) (n : Nat) : State :=
  if s.linkState n = lsActive ∧ !s.flag (F.linkStatusQuietPeer n) ∧
      (s.link n).rx.lastRx + 1000 * max 1 (s.slotGet (F.linkTmoAliveUs n)) ≤ s.chip.now then s.enterRecover n
  else s

/-- A CTRL flit at least once per microsecond, unless QUIET has been sent (R275). -/
def State.keepalive (s : State) (n : Nat) : State :=
  let t := (s.link n).tx
  if s.linkState n = lsActive ∧ !t.quiet ∧ t.lastCtrl + 1000 ≤ s.chip.now then
    s.updTx n (fun t => { t with aliveDue := true })
  else s

/-- A VC with flits waiting and no credit since when (R270); kept by the AON tick. -/
def Link.markStalls (l : Link) (now : Nat) : Link :=
  let stalled := fun v => l.tx.hasFlit v && l.tx.credits.getD v 0 == 0
  { l with tx := { l.tx with stallAt := l.tx.stallAt.zipIdx.map (fun p =>
      if stalled p.2 then some (p.1.getD now) else none) } }

/-- R270: a VC that has waited CREDIT_US without credit is counted, and the measurement restarts. -/
def State.creditStall (s : State) (n v : Nat) : State :=
  let t := (s.link n).tx
  if s.linkState n = lsActive ∧ t.hasFlit v ∧ t.credits.getD v 0 = 0 then
    match t.stallAt.getD v none with
    | none => s
    | some t0 =>
      if t0 + 1000 * max 1 (s.slotGet (F.linkTmoCreditUs n)) ≤ s.chip.now then
        (s.incLink n lkStall 1).updTx n (fun t => { t with stallAt := updAt t.stallAt v (fun _ => some s.chip.now) })
      else s
  else s

/-- DEAD_MS in RECOVER (R278). -/
def State.deadTimeout (s : State) (n : Nat) : State :=
  if s.linkState n = lsRecover ∧
      (s.link n).train.recoverAt + 1000000 * max 1 (s.slotGet (F.linkTmo2DeadMs n)) ≤ s.chip.now then s.enterDead n
  else s

/-- Entry to S3: every enabled link leaves OFF (R278, R409). -/
def State.linksOn (s : State) : State :=
  (List.range s.nLinks).foldl (fun s n =>
    if s.flag (F.linkCtlEn n) && s.linkState n == lsOff then (s.put (F.linkStatusState n) lsLanes).toLanes n else s) s

/-- E3: every trained link goes to LP (R299); on wake it trains again through LANES with RESUME = 1. DESIGN CHOICE
(assumption row 96): a link that was in LANES, HELLO or ECHO has no sequence state to resume, and trains with RESUME = 0. -/
def State.linksLp (s : State) : State :=
  (List.range s.nLinks).foldl (fun s n =>
    if s.linkState n = lsOff then s
    else (s.put (F.linkStatusState n) lsLp).updTrain n (fun t =>
      { t with idleReq := true, lpReq := true, resume := s.linkState n == lsActive || t.resume })) s

def State.linksWake (s : State) : State :=
  (List.range s.nLinks).foldl (fun s n =>
    if s.linkState n = lsLp then (s.put (F.linkStatusState n) lsLanes).toLanes n else s) s

end Sys2Proof.Machine
end

