-- ==== Sys2Proof/Machine/RosterBase.lean ====
section
/-! DEFINITION. Machine/RosterBase.lean: reading the roster copies (R233, R234), the epoch in force (R243), membership,
and the roster control header (R239). -/

namespace Sys2Proof.Machine

/-! ### Roster copies (R161, R233) -/

def rosterBase (copy : Nat) : Nat := if copy = 0 then 0x01000000 else 0x05000000

def entryOff (l e : Nat) : Nat := 0x1000 + 128 * (1024 * l + e)

def State.activeCopy (s : State) : Nat := s.get F.rosterStatusCopy

def State.rosterHdr (s : State) (copy : Nat) : List Byte := s.hget (rosterBase copy) 128

def State.rosterEntry (s : State) (copy l e : Nat) : List Byte := s.hget (rosterBase copy + entryOff l e) 128

/-- The packages of a mask of 16 words, ascending. -/
def maskPkgs (bs : List Byte) : List Nat :=
  (List.range 16).flatMap (fun w =>
    let x := wordAt bs w
    if x = 0 then [] else ((List.range 32).filter (fun b => bit x b)).map (fun b => 32 * w + b))

/-- A mask of 16 words with the bits of the given packages. -/
def pkgsMask (ps : List Nat) : List Word :=
  (List.range 16).map (fun w => ps.foldl (fun a p => if p / 32 = w then a ||| at_ (p % 32) 1 else a) (0 : Word))

def hdrMembers (h : List Byte) : List Nat := maskPkgs (h.drop 32)

/-- R234: a roster header passes its check. -/
def hdrOk (layers : Nat) (h : List Byte) : Bool :=
  let m := fld (wordAt h 5) 9 0
  recOk 32 h && decide (1 ≤ m ∧ m ≤ 512) && m == (hdrMembers h).length && fld (wordAt h 3) 8 0 == layers

/-- R234: a serving-set entry is valid at its position. -/
def entryOk (members : List Nat) (l e : Nat) (b : List Byte) : Bool :=
  let ps := maskPkgs b
  let sz := fld (wordAt b 16) 6 0
  recOk 32 b && decide (1 ≤ sz ∧ sz ≤ 64) && sz == ps.length && ps.all (fun p => members.contains p) &&
    fld (wordAt b 16) 31 21 == e && fld (wordAt b 16) 17 10 == l

def mkEntry (ps : List Nat) (l e : Nat) : List Byte :=
  sealWords (pkgsMask ps ++ [at_ 21 e ||| at_ 10 l ||| at_ 0 ps.length] ++ List.replicate 14 0)

def mkRosterHdr (epoch lqf act layers digest : Nat) (members : List Nat) : List Byte :=
  sealWords ([at_ 0 epoch, at_ 0 lqf, BitVec.ofNat 32 act, at_ 0 layers, BitVec.ofNat 32 digest,
    at_ 0 members.length, 0, 0] ++ pkgsMask members ++ List.replicate 7 0)

/-! ### Layers and experts of the model (spec/05's record) -/

def selBase : Nat := 0x2000

/-- N of a layer, from its selection record (R105). -/
def State.layerN (s : State) (l : Nat) : Nat := fld (wordAt (s.hget (selBase + 32 * l) 32) 1) 31 21

def State.modelLayers (s : State) : Nat := (s.job.model.map (·.layers)).getD 0

/-- DIGEST of a copy: the CRC-32C over the entries that exist, in ascending (layer, expert) (R233). -/
def State.rosterDigestOf (s : State) (copy : Nat) : Nat :=
  (crc32c ((List.range s.modelLayers).flatMap (fun l =>
    s.hget (rosterBase copy + entryOff l 0) (128 * s.layerN l)))).toNat

/-! ### Membership and epochs -/

def State.member (s : State) : Bool := s.flag F.bootStageMember

/-- The current step: the last accepted, or the one before the awaited when none has been accepted. -/
def State.curSeq (s : State) : Nat :=
  if s.job.anyAccepted then s.num R.stepLastSeq else seqAdd (s.num R.stepWaitSeq) (2 ^ 32 - 1)

/-- R243: is the staged roster in force at step x? -/
def State.stagedAt (s : State) (x : Nat) : Bool :=
  s.get F.rosterEpochStaged != 0 && !before 32 x (s.num R.rosterActStep)

/-- Departures whose effective step has come by x. -/
def State.goneAt (s : State) (ms : List Nat) (x : Nat) : List Nat :=
  ms.filter (fun p => p != s.self && s.roster.departs.any (fun d => d.pkg == p && !after 32 d.step x))

/-- Joins whose effective step has come by x. -/
def State.comeAt (s : State) (ms : List Nat) (x : Nat) : List Nat :=
  ((s.roster.joiners.filter (fun j => !after 32 j.step x && !ms.contains j.pkg)).map (·.pkg)).foldl (fun a p => insertAsc p a) []

/-- The members of the change roster that the boundary into a later step x will derive, when it has one (R246, R247). -/
def State.changeAt (s : State) (x : Nat) : Option (List Nat) :=
  if !after 32 x s.curSeq then none
  else
    let ms := hdrMembers (s.rosterHdr s.activeCopy)
    let gone := s.goneAt ms x
    let come := s.comeAt ms x
    if gone.isEmpty && come.isEmpty then none
    else some (come.foldl (fun a p => insertAsc p a) (ms.filter (fun p => !gone.contains p)))

/-- The epoch in force at step x (R243, R247); 0 outside a fleet roster (R232). -/
def State.epochAt (s : State) (x : Nat) : Nat :=
  if !s.member then 0
  else match s.changeAt x with
    | some _ => next16 (next16 (s.get F.rosterEpochActive))
    | none => if s.stagedAt x then s.get F.rosterEpochStaged else s.get F.rosterEpochActive

def State.copyAt (s : State) (x : Nat) : Nat := if s.stagedAt x then 1 - s.activeCopy else s.activeCopy

/-- Members of the roster in force at step x, ascending; the package alone in island mode. -/
def State.membersAt (s : State) (x : Nat) : List Nat :=
  if s.member then (s.changeAt x).getD (hdrMembers (s.rosterHdr (s.copyAt x))) else [s.self]

def State.members (s : State) : List Nat :=
  if s.member then hdrMembers (s.rosterHdr s.activeCopy) else [s.self]

def State.isLeader (s : State) : Bool := s.member && s.members.head? == some s.self

def State.isLost (s : State) (p : Nat) : Bool := s.roster.lost.contains p

/-- Results owed to a package are discarded: it is lost (R252), or this package has left its fleet and sends nothing on VC3 (R425). -/
def State.owedNothing (s : State) (p : Nat) : Bool := p != s.self && (s.isLost p || !s.member)

def srcRoster : Nat := 0x0D

/-! ### A roster as a value, and its records as they are read -/

/-- A roster record fails when read (R234). -/
def State.rosterBad (s : State) : State := (s.inc R.rosterRecErrCnt 1).err srcRoster 0 none

structure RosterVal where
  epoch : Nat
  lqf : Nat
  act : Nat
  members : List Nat
  /-- serving sets by layer and expert, ascending -/
  sets : List (List (List Nat))
  deriving DecidableEq, Repr

/-- The entries of one layer, with the zero space at and above N. -/
def layerEntries (l : Nat) (es : List (List Nat)) : List Byte :=
  padTo 131072 (es.mapIdx (fun e ps => mkEntry ps l e)).flatten

/-- DIGEST of a roster (R233). -/
def RosterVal.digest (v : RosterVal) : Nat :=
  (crc32c (v.sets.mapIdx (fun l es => (es.mapIdx (fun e ps => mkEntry ps l e)).flatten)).flatten).toNat

/-- The bytes of a roster copy. -/
def RosterVal.bytes (v : RosterVal) : List Byte :=
  padTo 0x1000 (mkRosterHdr v.epoch v.lqf v.act v.sets.length v.digest v.members) ++
    (v.sets.mapIdx layerEntries).flatten

/-- The roster of a copy, and how many of its records fail their checks (R234); a failing entry serves nothing. -/
def State.readRoster (s : State) (copy : Nat) : RosterVal × Nat :=
  let h := s.rosterHdr copy
  let ms := hdrMembers h
  let good := fun (l e : Nat) =>
    !s.ueIn (rosterBase copy + entryOff l e) 128 && entryOk ms l e (s.rosterEntry copy l e)
  let sets := (List.range s.modelLayers).map (fun l => (List.range (s.layerN l)).map (fun e =>
    if good l e then maskPkgs (s.rosterEntry copy l e) else []))
  let bad := sumNat ((List.range s.modelLayers).map (fun l =>
    ((List.range (s.layerN l)).filter (fun e => !good l e)).length))
  let hbad := b2n (s.ueIn (rosterBase copy) 128 || !hdrOk s.modelLayers h)
  (⟨fld (wordAt h 0) 15 0, fld (wordAt h 1) 7 0, (wordAt h 2).toNat, ms, sets⟩, bad + hbad)

/-- Count the failing records that a reading found. -/
def State.rosterBads (s : State) (n : Nat) : State := (List.range n).foldl (fun t _ => t.rosterBad) s

/-- A copy is read whole under SECDED (R160): its corrected and uncorrectable words are counted. -/
def State.probeRoster (s : State) (copy : Nat) : State :=
  (List.range s.modelLayers).foldl (fun t l => (t.readMeta .keeper 0 (rosterBase copy + entryOff l 0) (128 * t.layerN l)).1)
    (s.readMeta .keeper 0 (rosterBase copy) 128).1

/-- The roster of a copy is read whole: its failing records are counted and are control errors (R234). -/
def State.takeRoster (s : State) (copy : Nat) : RosterVal × State :=
  ((s.readRoster copy).1, (s.probeRoster copy).rosterBads (s.readRoster copy).2)

def State.writeRoster (s : State) (copy : Nat) (v : RosterVal) : State := s.writeAt .keeper 0 (rosterBase copy) v.bytes

/-- An entry of a copy is read against the members of its roster: its packages, ascending; a failing entry serves nothing, is
counted and is an error (R234). -/
def State.readEntry (s : State) (copy : Nat) (ms : List Nat) (l e : Nat) : List Nat × State :=
  let (s1, ue) := s.readMeta .keeper 0 (rosterBase copy + entryOff l e) 128
  let b := s1.rosterEntry copy l e
  if !ue && entryOk ms l e b then (maskPkgs b, s1) else ([], s1.rosterBad)

/-- The header of a copy is read: its members; one that fails its check names none, is counted and is an error (R234). -/
def State.readMembers (s : State) (copy : Nat) : List Nat × State :=
  let (s1, ue) := s.readMeta .keeper 0 (rosterBase copy) 128
  if !ue && hdrOk s1.modelLayers (s1.rosterHdr copy) then (hdrMembers (s1.rosterHdr copy), s1) else ([], s1.rosterBad)

/-- The serving set of (layer, expert) at step x, ascending. -/
def State.serving (s : State) (x l e : Nat) : List Nat × State :=
  if !s.member then ([s.self], s) else s.readEntry (s.copyAt x) (s.membersAt x) l e

/-- The header of the roster in force at step x passes its check when read. -/
def State.checkRosterHdr (s : State) (x : Nat) : State :=
  if !s.member then s
  else
    (s.readMembers (s.copyAt x)).2

/-! ### Roster control messages (R239) -/

abbrev opRevStart : Nat := 1
abbrev opRevVote : Nat := 2
abbrev opRevCommit : Nat := 3
abbrev opRevAbort : Nat := 4
abbrev opLoss : Nat := 5
abbrev opLeave : Nat := 6
abbrev opJoinReq : Nat := 7
abbrev opJoinAck : Nat := 8
abbrev opXfer : Nat := 9

/-- LOSS and JOIN_REQ go to the packages that are reachable (R248, R251); the other messages go to each package that they are
for, and wait for a route where there is none (R240, R249, R287). -/
def reachOnly (op : Nat) : Bool := op == opLoss || op == opJoinReq

/-- A roster control packet to one package. -/
def State.sendRoster (s : State) (dest op epoch arg0 arg1 : Nat) (body : List Byte) : State :=
  let h : W8 :=
    { w0 := at_ 28 5 ||| at_ 0 (ceilDiv body.length 16), w1 := at_ 28 op, w2 := at_ 16 (epoch % 65536) ||| at_ 1 dest,
      w3 := BitVec.ofNat 32 arg0, w4 := BitVec.ofNat 32 s.curSeq,
      w5 := at_ 23 s.self ||| at_ 2 (s.get F.rosterEpochActive), w6 := BitVec.ofNat 32 arg1, w7 := 0 }
  let dst := s.cmidOf dest
  if dest ≠ s.self ∧ (!reachOnly op || s.reachable dst) then
    s.sendPkt (TxPkt.own 0 dst 1 (h.sealed.bytes ++ padded16 body) none [])
  else s

/-- The message to each of a list of packages but the lost ones. -/
def State.castRoster (s : State) (dests : List Nat) (op epoch arg0 arg1 : Nat) : State :=
  (dests.filter (fun d => !s.isLost d)).foldl (fun s d => s.sendRoster d op epoch arg0 arg1 []) s

/-- LOSS of a package to every reachable member except some (R250, R251). -/
def State.sendLoss (s : State) (pkg eff : Nat) (skip : List Nat) : State :=
  s.castRoster (s.members.filter (fun p => !skip.contains p)) opLoss 0 eff pkg

end Sys2Proof.Machine
end

