-- ==== Sys2Proof/Machine/Layers.lean ====
section
/-! DEFINITION. Machine/Layers.lean: the layer records of a model (R91, R105, R139, R142), their checks (R92, R106, R143),
and the arithmetic that depends on them alone: gate logits (R73 to R76) and rotation (R137, R138). -/

namespace Sys2Proof.Machine

/-! ### Gate layer records (R91 to R93, R98) -/

structure GateRec where
  fmt : Nat
  block : Bool
  n : Nat
  h : Nat
  xshift : Int
  wshift : Int
  zx : Nat
  zw : Nat
  pageOff : Nat
  csumOff : Nat
  bytes : Nat
  idx : Nat
  deriving DecidableEq, Repr

def gateRecOf (b : List Byte) : GateRec :=
  let w := wordAt b
  { fmt := fld (w 0) 31 28, block := bit (w 0) 27, n := fld (w 0) 26 16, h := fld (w 0) 14 0,
    xshift := signed 8 (fld (w 1) 31 24), wshift := signed 8 (fld (w 1) 23 16), zx := fld (w 1) 15 8,
    zw := fld (w 1) 7 0, pageOff := fld (w 2) 24 0, csumOff := fld (w 3) 24 0, bytes := (w 4).toNat,
    idx := fld (w 5) 7 0 }

def State.gateBytes (s : State) (l : Nat) : List Byte := s.hget (32 * l) 32

def State.gateRec (s : State) (l : Nat) : GateRec := gateRecOf (s.gateBytes l)

/-- Elements per cell E, and bytes per cell (R72's table). -/
def cellElems (fmt : Nat) : Nat := if fmtBits fmt = 4 then 2 else 1

def cellBytes (fmt : Nat) : Nat := if fmtBits fmt = 16 then 2 else 1

/-- Token interval II (R72's table). -/
def tokenInterval (fmt : Nat) : Nat := if fmtBits fmt = 16 then 2 else 1

/-- Kr: the array rows of the layer. -/
def GateRec.kr (g : GateRec) : Nat := g.h / cellElems g.fmt

def GateRec.pageRows (g : GateRec) : Nat := ceilDiv g.kr 64

def GateRec.pageCols (g : GateRec) : Nat := ceilDiv g.n 256

def GateRec.colWidth (g : GateRec) (c : Nat) : Nat := min 256 (g.n - 256 * c)

/-- Bytes of a page of page column c, rounded up to 64 (R93). -/
def GateRec.pageSize (g : GateRec) (c : Nat) : Nat :=
  let w := g.colWidth c
  roundUp (64 * w * cellBytes g.fmt + (if g.block then w * 2 * cellElems g.fmt else 0)) 64

def GateRec.layerBytes (g : GateRec) : Nat :=
  sumNat ((List.range g.pageCols).map (fun c => g.pageRows * g.pageSize c))

/-- Byte offset of page (c, p) from the layer's first page. -/
def GateRec.pageAt (g : GateRec) (c p : Nat) : Nat :=
  sumNat ((List.range c).map (fun d => g.pageRows * g.pageSize d)) + p * g.pageSize c

def GateRec.zeroPoint (g : GateRec) : Bool := g.fmt == 0xB || g.fmt == 0xD

/-- Bytes of the column-sum record (R98). -/
def GateRec.csumBytes (g : GateRec) : Nat := if g.zeroPoint then roundUp (4 * g.n) 64 else 0

/-- R92: the record at position l is valid, in a gate region of `size` bytes. -/
def GateRec.valid (g : GateRec) (l size : Nat) : Bool :=
  isGateFmt g.fmt && (!g.block || gateBlockOk g.fmt) && decide (1 ≤ g.n ∧ g.n ≤ 1024) &&
    decide (32 ≤ g.h ∧ g.h ≤ 16384 ∧ g.h % 32 = 0) && (g.zeroPoint || (g.zx == 0 && g.zw == 0)) &&
    (g.fmt != 0xD || decide (g.zx ≤ 15 ∧ g.zw ≤ 15)) && (g.zeroPoint || g.csumOff == 0) &&
    g.bytes == g.layerBytes && decide (64 * g.pageOff + g.bytes ≤ size) &&
    decide (64 * g.csumOff + g.csumBytes ≤ size) && g.idx == l

/-! ### Selection layer records (R105, R106) -/

structure SelRec where
  score : Nat
  norm : Nat
  renorm : Bool
  biasEn : Bool
  gscore : Bool
  k : Nat
  g : Nat
  tg : Nat
  shared : Nat
  n : Nat
  capf : Nat
  capMin : Nat
  scale : Nat
  sharedW : Nat
  idx : Nat
  deriving DecidableEq, Repr

def selRecOf (b : List Byte) : SelRec :=
  let w := wordAt b
  { score := fld (w 0) 31 30, norm := fld (w 0) 29 28, renorm := bit (w 0) 27, biasEn := bit (w 0) 26,
    gscore := bit (w 0) 25, k := fld (w 0) 23 21 + 1, g := fld (w 0) 20 15 + 1, tg := fld (w 0) 14 9 + 1,
    shared := fld (w 0) 8 5, n := fld (w 1) 31 21, capf := fld (w 1) 20 13, capMin := fld (w 1) 12 0,
    scale := (w 2).toNat, sharedW := (w 3).toNat, idx := fld (w 4) 7 0 }

def State.selBytes (s : State) (l : Nat) : List Byte := s.hget (selBase + 32 * l) 32

def State.selRec (s : State) (l : Nat) : SelRec := selRecOf (s.selBytes l)

def biasBase : Nat := 0x10000

/-- The bias table of layer l: FP32 codes of experts 0 to n − 1. -/
def State.biases (s : State) (l n : Nat) : List Nat :=
  (bytesWords n (s.hget (biasBase + 4096 * l) (4 * n))).map (·.toNat)

/-- R106, with the layer's N of its gate record and its bias entries. -/
def SelRec.valid (r : SelRec) (l gateN : Nat) (bias : List Nat) : Bool :=
  decide (r.score ≤ 2) && decide (r.norm ≤ 1) && r.n == gateN && decide (r.n % r.g = 0) && decide (r.tg ≤ r.g) &&
    decide (r.k ≤ r.tg * (r.n / r.g)) && decide (r.shared ≤ 8) && (!r.renorm || r.norm == 1) &&
    isFinite32 r.scale && isFinite32 r.sharedW && (!r.biasEn || bias.all isFinite32) && r.idx == l

/-! ### Whisk layer records and rotation records (R139, R142, R143) -/

structure WhiskRec where
  dfmt : Nat
  dblock : Bool
  nosat : Bool
  rot : Nat
  cfmt : Nat
  cblock : Bool
  initO : Int
  oMin : Int
  oMax : Int
  hold : Nat
  satThr : Nat
  unfThr : Nat
  idx : Nat
  deriving DecidableEq, Repr

def whiskRecOf (b : List Byte) : WhiskRec :=
  let w := wordAt b
  { dfmt := fld (w 0) 31 28, dblock := bit (w 0) 27, nosat := bit (w 0) 26, rot := fld (w 0) 25 18,
    cfmt := fld (w 0) 17 14, cblock := bit (w 0) 13, initO := signed 8 (fld (w 1) 31 24),
    oMin := signed 8 (fld (w 1) 23 16), oMax := signed 8 (fld (w 1) 15 8), hold := fld (w 1) 7 0,
    satThr := fld (w 2) 31 16, unfThr := fld (w 2) 15 0, idx := fld (w 4) 7 0 }

def whiskBase : Nat := 0x4000
def rotBase : Nat := 0x6000

def State.whiskBytes (s : State) (l : Nat) : List Byte := s.hget (whiskBase + 32 * l) 32

def State.whiskRec (s : State) (l : Nat) : WhiskRec := whiskRecOf (s.whiskBytes l)

def State.rotRec (s : State) (r : Nat) : List Byte := s.hget (rotBase + 160 * r) 160

/-- B of a rotation record. -/
def rotSize (b : List Byte) : Nat := 16 * 4 ^ fld (wordAt b 32) 1 0

/-- SIGN bit i of a rotation record. -/
def rotSign (b : List Byte) (i : Nat) : Bool := bit (wordAt b (i / 32)) (i % 32)

/-- R143: a rotation record is valid as rotation id r. -/
def rotValid (b : List Byte) (r : Nat) : Bool :=
  recOk 40 b && fld (wordAt b 33) 7 0 == r &&
    (List.range 1024).all (fun i => decide (i < rotSize b) || !rotSign b i)

/-- R143. -/
def WhiskRec.valid (r : WhiskRec) (l h allowD allowC : Nat) (rot : List Byte) : Bool :=
  isDispFmt r.dfmt && allowD.testBit r.dfmt && (!r.dblock || dispBlockOk r.dfmt) && isCombFmt r.cfmt &&
    allowC.testBit r.cfmt && (!r.cblock || combBlockOk r.cfmt) &&
    (r.rot == 0 || (rotValid rot r.rot && decide (h % rotSize rot = 0))) &&
    decide (r.oMin ≤ r.initO ∧ r.initO ≤ r.oMax ∧ r.oMin ≠ -128) && r.idx == l

/-- Bytes of a dispatch payload and of a result payload of a layer (R136). -/
def State.dispBytes (s : State) (l : Nat) : Nat :=
  payloadBytes (s.whiskRec l).dfmt (s.whiskRec l).dblock (s.gateRec l).h

def State.resBytes (s : State) (l : Nat) : Nat :=
  payloadBytes (s.whiskRec l).cfmt (s.whiskRec l).cblock (s.gateRec l).h

/-! ### The record checks of a load (R392 step 4) -/

def State.gateSize (s : State) : Nat := s.hive.layout.gateSz * metaUnit

def State.gateValid (s : State) (l : Nat) : Bool :=
  recOk 8 (s.gateBytes l) && !s.ueIn (32 * l) 32 && (s.gateRec l).valid l s.gateSize

def State.selValid (s : State) (l : Nat) : Bool :=
  recOk 8 (s.selBytes l) && !s.ueIn (selBase + 32 * l) 32 && !((s.selRec l).biasEn && s.ueIn (biasBase + 4096 * l) (4 * (s.selRec l).n)) &&
    (s.selRec l).valid l (s.gateRec l).n (s.biases l (s.selRec l).n)

def State.whiskValid (s : State) (l : Nat) : Bool :=
  let r := s.whiskRec l
  recOk 8 (s.whiskBytes l) && !s.ueIn (whiskBase + 32 * l) 32 &&
    !(r.rot != 0 && s.ueIn (rotBase + 160 * r.rot) 160) &&
    r.valid l (s.gateRec l).h (s.get F.fmtAllowDispMask) (s.get F.fmtAllowCombMask) (s.rotRec r.rot)

/-- The records of every layer, and the tables that they have read (R106), are read under SECDED (R160): corrected and
uncorrectable words are counted. -/
def State.probeRecords (s : State) (layers : Nat) : State :=
  (List.range layers).foldl (fun s l =>
    let read := fun (t : State) (a n : Nat) => (t.readMeta .keeper 0 a n).1
    let s1 := read (read (read s (32 * l) 32) (selBase + 32 * l) 32) (whiskBase + 32 * l) 32
    let s2 := if (s.selRec l).biasEn then read s1 (biasBase + 4096 * l) (4 * (s.selRec l).n) else s1
    if (s.whiskRec l).rot = 0 then s2 else read s2 (rotBase + 160 * (s.whiskRec l).rot) 160) s

/-- The first failing layer of a check. -/
def firstBad (f : Nat → Bool) (n : Nat) : Option Nat := (List.range n).find? (fun l => !f l)

/-- R392 step 4: the load error of the records, as (code, layer): of several the first table's, then the lowest layer's (R393;
DESIGN CHOICE, assumption row 96). -/
def State.recordsBad (s : State) (layers : Nat) : Option (Nat × Nat) :=
  match firstBad s.gateValid layers with
  | some l => some (4, l)
  | none => match firstBad s.selValid layers with
    | some l => some (5, l)
    | none => match firstBad s.whiskValid layers with
      | some l => some (6, l)
      | none => none

/-! ### Gate weights (R93, R98) -/

/-- The raw code of the weight of column j at reduction element k. -/
def State.gateWeight (s : State) (g : GateRec) (k j : Nat) : Nat :=
  let e := cellElems g.fmt
  let r := k / e
  let c := j / 256
  let w := g.colWidth c
  let base := s.hive.layout.gateBase + 64 * g.pageOff + g.pageAt c (r / 64)
  let cell := leNat (s.hget (base + (r % 64 * w + j % 256) * cellBytes g.fmt) (cellBytes g.fmt))
  if e = 2 then (if k % 2 = 0 then cell % 16 else cell / 16) else cell

/-- CS(j) (R98). -/
def State.colSum (s : State) (g : GateRec) (j : Nat) : Nat :=
  sumNat ((List.range g.h).map (fun k => s.gateWeight g k j)) % 2 ^ 32

/-- R98: the Sieve's sum path reads the pages of a layer once and writes its column-sum record. DESIGN CHOICE (assumption row
96): the Sieve of region 0 does so for every layer. -/
def State.writeCsum (s : State) (l : Nat) : State :=
  let g := s.gateRec l
  if g.zeroPoint then
    (s.post .sieve 0 false (s.hive.layout.gateBase + 64 * g.pageOff) g.bytes).writeAt .sieve 0
      (s.hive.layout.gateBase + 64 * g.csumOff) (padTo g.csumBytes ((List.range g.n).flatMap (fun j => leBytes 4 (s.colSum g j))))
  else s

/-! ### The feeder (R73, R99) -/

/-- The converted token: element codes, block shifts, and how many elements the feeder counts. -/
structure FedRow where
  codes : List Nat
  shifts : List Nat
  counted : Nat
  deriving DecidableEq, Repr

/-- R73, integer formats: one element. -/
def feedInt (g : GateRec) (v : FV) : Nat × Nat :=
  let b := fmtBits g.fmt
  let zp := g.zeroPoint
  let lo : Int := if zp then 0 else -((2 ^ (b - 1) : Nat) : Int)
  let hi : Int := if zp then ((2 ^ b : Nat) : Int) - 1 else ((2 ^ (b - 1) : Nat) : Int) - 1
  let code := fun (i : Int) => unsigned b i
  match v.scale g.xshift with
  | .nan => (code g.zx, 1)
  | .inf true => (code lo, 1)
  | .inf false => (code hi, 1)
  | .fin s m e =>
    let r : Int := rneShift m e
    let i := (if s then -r else r) + (g.zx : Int)
    if i < lo then (code lo, 1) else if hi < i then (code hi, 1) else (code i, 0)

/-- R73: a hidden-state row, as values, to the gate format. -/
def feedRow (g : GateRec) (vs : List FV) : FedRow :=
  match fmtOf g.fmt with
  | .flt _ =>
    let r := shiftConvert g.fmt g.block true 0 (vs.map (fun v => v.scale g.xshift))
    ⟨r.1, r.2.1, r.2.2.sat + r.2.2.nan⟩
  | _ =>
    let r := vs.map (feedInt g)
    ⟨r.map (·.1), [], sumNat (r.map (·.2))⟩

/-! ### The gate logit (R75, R76) -/

/-- One product term of R75: an array row whose first element is k, with its cell's code and its block's shift code. -/
def gateTerm (g : GateRec) (x : FedRow) (k cell sw : Nat) : Nat :=
  let e := cellElems g.fmt
  let term := fun (i w : Nat) => (fmtDecode g.fmt (x.codes.getD (k + i) 0)).mul (fmtDecode g.fmt w)
  let p := if e = 1 then term 0 cell else (term 0 (cell % 16)).add (term 1 (cell / 16))
  if g.block then
    let sx := x.shifts.getD (k / 32) 0
    if sx = 0xFF ∨ sw = 0xFF then 0x7FC00000
    else rne32 (p.scale ((sx : Int) - 127 + ((sw : Int) - 127)))
  else rne32 p

/-- The value of a code of an integer gate format. -/
def gateInt (g : GateRec) (c : Nat) : Int :=
  if g.zeroPoint then (c : Int) else signed (fmtBits g.fmt) (c % 2 ^ fmtBits g.fmt)

/-- One product term of R76, of an array row. -/
def gateIntTerm (g : GateRec) (x : FedRow) (k cell : Nat) : Int :=
  if cellElems g.fmt = 1 then gateInt g (x.codes.getD k 0) * gateInt g cell
  else gateInt g (x.codes.getD k 0) * gateInt g (cell % 16) + gateInt g (x.codes.getD (k + 1) 0) * gateInt g (cell / 16)

/-- The gate format is a floating one. -/
def GateRec.floating (g : GateRec) : Bool := match fmtOf g.fmt with
  | .flt _ => true
  | _ => false

/-- The logit of a float total (R75). -/
def logitFloat (g : GateRec) (total : Nat) : Nat := rne32 ((dec32 total).scale (-(g.xshift + g.wshift)))

/-- The logit of an INT32 sum, with the column's CS (R76, R99). -/
def logitInt (g : GateRec) (x : FedRow) (cs sum : Nat) : Nat :=
  let rs : Int := x.codes.foldl (fun a c => a + gateInt g c) 0
  let v : Int := if g.zeroPoint then
      (sum : Int) - (g.zx : Int) * (cs : Int) - (g.zw : Int) * rs + (g.h : Int) * g.zx * g.zw
    else (sum : Int)
  let w := signed 32 (unsigned 32 v)
  rne32 ((dec32 (rne32 (.ofInt w))).scale (-(g.xshift + g.wshift)))

/-! ### Rotation (R137, R138) -/

/-- One butterfly stage of stride 2^m over binary32 codes. -/
def rotStage (m : Nat) (a : List Nat) : List Nat :=
  a.mapIdx (fun i x =>
    let st := 2 ^ m
    if (i / st) % 2 = 0 then add32 x (a.getD (i + st) 0) else sub32 (a.getD (i - st) 0) x)

def rotStages : Nat → Nat → List Nat → List Nat
  | 0, _, a => a
  | n + 1, m, a => rotStages n (m + 1) (rotStage m a)

/-- R138 on one block of B elements, under a rotation record. -/
def rotBlock (rot : List Byte) (a : List Nat) : List Nat :=
  let lg := Nat.log2 (rotSize rot)
  let signEn := bit (wordAt rot 32) 2
  let a0 := a.mapIdx (fun i x => if signEn && rotSign rot i then rne32 (dec32 x).neg else x)
  (rotStages lg 0 a0).map (fun x => rne32 ((dec32 x).scale (-((lg / 2 : Nat) : Int))))

/-- R138 on a token. -/
def rotToken (rot : List Byte) (a : List Nat) : List Nat :=
  (chunksOf (rotSize rot) a.length a).flatMap (rotBlock rot)

/-! ### Hidden-state rows -/

/-- Bytes of one HS_TILE row of H elements (R74). -/
def hsRowBytes (fmt h : Nat) : Nat := pad16 (elemBytes fmt h)

/-- The values of a hidden-state row. -/
def hsValues (fmt h : Nat) (bs : List Byte) : List FV := (unpackCodes (fmtBits fmt) h bs).map (fmtDecode fmt)

/-- The dispatch payload of a hidden-state row, and what its conversion counts (R145). -/
def State.quantise (s : State) (l : Nat) (o : Int) (fmt : Nat) (bs : List Byte) : List Byte × ConvEv :=
  let r := s.whiskRec l
  let h := (s.gateRec l).h
  let a := (hsValues fmt h bs).map rne32
  let b := if r.rot = 0 then a else rotToken (s.rotRec r.rot) a
  encodePayload r.dfmt r.dblock (!r.nosat) o (b.map dec32)

end Sys2Proof.Machine
end

