-- ==== Sys2Proof/Machine/JobBase.lean ====
section
/-! DEFINITION. Machine/JobBase.lean: the stream table (R380), the Ask (R382 to R385), partition reset (R468, R469),
teardown (R471), the fault policy (R464 to R467) and the end of a job (R396). -/

namespace Sys2Proof.Machine

def State.updStep (s : State) (f : StepSt → StepSt) : State := { s with step := f s.step }

def State.updCnt (s : State) (f : AskCnt → AskCnt) : State := s.updStep (fun x => { x with cnt := f x.cnt })

def State.updJob (s : State) (f : Job → Job) : State := { s with job := f s.job }

/-! ### The stream table (R161, R380) -/

def streamBase : Nat := 0x200000

def State.streamBytes (s : State) (i : Nat) : List Byte := s.hget (streamBase + 256 * i) 256

/-- A stream-table entry. -/
structure Stream where
  present : Bool
  tok : Nat
  joinSeq : Nat
  tokLast : Nat
  tokTotal : Nat
  drops : Nat
  losts : Nat
  poisons : Nat
  deriving DecidableEq, Repr

def streamOf (b : List Byte) : Stream :=
  let w := wordAt b
  { present := bit (w 0) 31, tok := fld (w 1) 17 0, joinSeq := (w 2).toNat, tokLast := (w 3).toNat,
    tokTotal := (w 4).toNat + 2 ^ 32 * (w 5).toNat, drops := (w 6).toNat, losts := (w 7).toNat,
    poisons := (w 8).toNat }

def State.stream (s : State) (i : Nat) : Stream := streamOf (s.streamBytes i)

def State.putStream (s : State) (i : Nat) (x : Stream) : State :=
  s.writeAt .keeper 0 (streamBase + 256 * i) (sealWords ([at_ 31 (b2n x.present) ||| at_ 0 i, at_ 0 x.tok,
    BitVec.ofNat 32 x.joinSeq, BitVec.ofNat 32 x.tokLast, BitVec.ofNat 32 x.tokTotal,
    BitVec.ofNat 32 (x.tokTotal / 2 ^ 32), BitVec.ofNat 32 x.drops, BitVec.ofNat 32 x.losts,
    BitVec.ofNat 32 x.poisons] ++ List.replicate 54 0))

def State.updStream (s : State) (i : Nat) (f : Stream → Stream) : State := s.putStream i (f (s.stream i))

/-- Clear a stream's entry (R378 step 3). -/
def State.clearStream (s : State) (i : Nat) : State := s.writeAt .keeper 0 (streamBase + 256 * i) (List.replicate 256 0)

/-- The ids of the streams with a PRESENT entry, ascending: only entries with a listed byte can be present. -/
def State.streamIds (s : State) : List Nat :=
  let ids := (s.hive.mem.filter (fun c => decide (streamBase ≤ c.1 ∧ c.1 < streamBase + 0x400000))).foldl
    (fun acc c => let i := (c.1 - streamBase) / 256
      if acc.head? = some i then acc else i :: acc) []
  ids.reverse.filter (fun i => (s.stream i).present)

def State.present (s : State) (i : Nat) : Bool := (s.stream i).present

def srcStreamEntry : Nat := 0x13

/-- A stream-table entry passes its CRC when read; one never written since the zeroisation is all zero (R192). -/
def State.streamOk (s : State) (i : Nat) : Bool :=
  let b := s.streamBytes i
  recOk 64 b || b.all (fun x => x == 0)

/-- A requester reads an entry: a failing one is a control error attributable to its stream (R464, STREAM_ENTRY). A stream that is
marked torn already (R471) is not torn again, and one command records an entry's failure once. -/
def State.checkStream (s : State) (g : HiveGroup) (m i : Nat) : State :=
  if s.step.torn.contains i || s.errs.any (fun e => e.src == srcStreamEntry && e.stream == some i) then s
  else
    let (s1, ue) := s.readMeta g m (streamBase + 256 * i) 256
    if ue || !s1.streamOk i then s1.err srcStreamEntry (entryUnit g m) (some i) else s1

/-- Entries that are read together: true when none of them failed. -/
def State.checkStreams (s : State) (g : HiveGroup) (m : Nat) (is : List Nat) : Bool × State :=
  let s1 := is.foldl (fun t i => t.checkStream g m i) s
  (s1.errs.length == s.errs.length, s1)

/-- A requester counts something of a stream since its join (R380, S6 to S8): the entry is read first, and written where it is
sound. -/
def State.bumpStream (s : State) (g : HiveGroup) (m i : Nat) (f : Stream → Stream) : State :=
  let s1 := s.checkStream g m i
  if s1.present i && recOk 64 (s1.streamBytes i) && !s1.ueIn (streamBase + 256 * i) 256 then s1.updStream i f else s1

/-! ### Step sequences -/

/-- The sequence of the step in progress. -/
def State.stepSeq (s : State) : Nat := s.num R.stepLastSeq

/-- The sequence awaited. -/
def State.nextSeq (s : State) : Nat := s.num R.stepWaitSeq

/-- The step in progress accepts work: accepted, its Ask not yet written. -/
def State.inStep (s : State) : Bool := s.step.inProg && s.stepping

/-! ### The Ask (R382 to R385) -/

def stOk : Nat := 0
def stDeferred : Nat := 1
def stDrops : Nat := 2
def stPoisoned : Nat := 3
def stDeadline : Nat := 4
def stPartition : Nat := 5
def stTeardown : Nat := 6
def stYielded : Nat := 7

/-- The torn streams that the next Ask names, first torn first (R402). -/
def State.tornShown (s : State) : List Nat := s.step.tornEarly ++ (if s.step.inProg then s.step.torn else [])

/-- R385: the first status of the precedence that applies to the step. -/
def State.stepStatus (s : State) (yielded : Bool) : Nat :=
  let c := s.step.cnt
  if c.deadline then stDeadline
  else if !s.tornShown.isEmpty then stTeardown
  else if 0 < c.poisoned ∨ c.poisonRow = true ∨ s.swarm.mark.contains s.stepSeq ∨ s.bar.fired = some (s.stepSeq, true) then stPoisoned
  else if yielded then stYielded
  else if 0 < c.drops ∨ 0 < c.lost then stDrops
  else if !s.step.deferred.isEmpty then stDeferred
  else stOk

/-- What an Ask says beside the step's counts. -/
structure AskHead where
  seq : Nat
  status : Nat
  load : Bool
  resumed : Bool
  final : Bool
  /-- the Ask of an accepted Recipe: its counts, tags and duration -/
  ran : Bool
  /-- the Recipe ran a step: its mode, reservation and SHORT (R395) -/
  work : Bool
  deriving DecidableEq, Repr

/-- END_SEQ of an Ask (A23): while the end is pending, and in the final Ask. -/
def State.askEnd (s : State) (h : AskHead) : Nat :=
  match s.job.endSeq with
  | some e => e
  | none => if h.final then h.seq else 0

/-- A2. -/
def State.askFlags (s : State) (h : AskHead) : Word :=
  let c := s.step.cnt
  at_ 11 (b2n h.resumed) ||| at_ 10 (b2n h.final) |||
    at_ 9 (b2n (!h.final && s.flag F.jobStatusEndPending)) ||| at_ 8 (b2n (h.ran && s.swarm.late.contains h.seq)) |||
    at_ 7 (b2n (s.get F.rosterStatusDrain != 0)) ||| at_ 6 (b2n (decide (0 < c.thm))) |||
    at_ 5 (b2n (!h.load && c.lossFlag)) ||| at_ 4 (b2n (!h.load && c.stagedFlag)) |||
    at_ 3 (b2n (h.work && s.flag F.hiveStatusShort)) ||| at_ 2 (b2n (h.work && s.step.fleet)) |||
    at_ 1 (b2n (h.work && s.step.ordered)) ||| at_ 0 (b2n h.load)

/-- The record A0 to A31. -/
def State.askWords (s : State) (h : AskHead) : List Word :=
  let k := s.step.cnt
  let c := if h.ran then k else { AskCnt.reset with thm := k.thm, losses := k.losses, lossFlag := k.lossFlag }
  let n := fun (v : Nat) => (BitVec.ofNat 32 v : Word)
  let endShown := h.final || s.flag F.jobStatusEndPending
  let torn := if h.load then [] else s.tornShown
  [n h.seq, at_ 28 h.status ||| at_ 0 (s.get F.jobIdId), s.askFlags h, n c.tokens, n c.copies, n c.remote, n c.spills,
    n c.drops, n c.lost, n c.poisoned,
    at_ 16 c.joins ||| at_ 0 (if h.ran then s.step.deferred.length else 0),
    at_ 16 c.leaves ||| at_ 0 c.streams,
    at_ 16 (s.get F.rosterEpochStaged) ||| at_ 0 (s.get F.rosterEpochActive),
    (if s.get F.rosterEpochStaged = 0 then 0 else s.word R.rosterActStep),
    at_ 16 c.losses.length ||| at_ 0 (c.losses.head?.getD 0),
    n (if h.work then s.num R.hiveRsvT else 0),
    n (if h.ran then (s.step.endedAt - s.step.acceptedAt) / 1000 else 0),
    n s.chip.now, n (s.chip.now / 2 ^ 32), n (if h.load then 0 else c.thm), n c.nans, n c.sat, n c.overb,
    n (if endShown then s.askEnd h else 0),
    at_ 16 torn.length ||| at_ 0 (torn.head?.getD 0),
    (if h.ran then s.step.tag0 else 0), (if h.ran then s.step.tag1 else 0),
    n (if h.ran then s.step.done.length else 0), 0, 0, 0]

/-- The ring and the Ask area hold S slots (R372, R406: 0 acts as 1, above 8 as 8). -/
def State.ringSlots (s : State) : Nat := 2 ^ s.job.log2

def State.askAddr (s : State) (seq : Nat) : Nat := s.job.ask + 32768 * (seq % s.ringSlots)

def State.ringAddr (s : State) (seq : Nat) : Nat := s.job.ring + 256 * (seq % s.ringSlots)

/-- A DMA write to the port that owns the job. -/
def State.dma (s : State) (addr : Nat) (bs : List Byte) : State := s.emit (.dmaWrite (s.get F.jobOwnerPort) addr bs)

/-- A DMA read through the port that owns the job (R37). -/
def State.dmaRead (s : State) (addr n : Nat) : State := s.emit (.dmaRead (s.get F.jobOwnerPort) addr n)

/-- STEP_WAIT_SEQ moves to a sequence that has been refused nothing yet (R407). -/
def State.awaitSeq (s : State) (x : Nat) : State := (s.setNum R.stepWaitSeq x).put F.stepRefuseCode 0

/-- The step's state goes; thermal assertions that no Ask has reported stay for the next one (R47). -/
def State.resetStep (s : State) : State :=
  { s with step := { StepSt.reset with cnt := { AskCnt.reset with thm := s.step.cnt.thm } } }

/-- DIG_VALID: one bit per layer done (R383). -/
def State.digValid (s : State) : List Word :=
  (List.range 8).map (fun i => s.step.done.foldl (fun w l => if l / 32 = i then w ||| at_ (l % 32) 1 else w) (0 : Word))

def State.digestWords (s : State) : List Word :=
  (List.range 256).map (fun l => BitVec.ofNat 32 (SMap.get zeroAt s.step.digests l))

/-- The engine starts a read of the awaited slot and its next poll (R377). -/
def State.pollSlot (s : State) : State :=
  let s1 := s.dmaRead (s.ringAddr s.nextSeq) 256
  (s1.updJob (fun j => { j with reads := j.reads ++ [s1.chip.now] })).arm tmPoll s.pollUnits

/-- The Ask leaves: extension first, record last, then ASK_READY (R384). -/
def State.writeAsk (s : State) (h : AskHead) : State :=
  let a := s.askAddr h.seq
  let z8 : List Word := List.replicate 8 0
  let z256 : List Word := List.replicate 256 0
  let s1 := s.dma (a + 0x80) (wordsBytes (if h.ran then s.digValid else z8))
  let s2 := s1.dma (a + 0x100) (wordsBytes (if h.ran then s.digestWords else z256))
  let s3 := if h.ran && !s.step.deferred.isEmpty then
      s2.dma (a + 0x1000) (s.step.deferred.flatMap (fun x => leBytes 4 x)) else s2
  let s4 := (s3.dma a (sealWords (s.askWords h))).put F.jobStatusLastStatus h.status
  (s4.updCnt (fun _ => AskCnt.reset)).raise evAsk

/-- After an Ask that is not the job's last: the values of R407 settle, polling, the step deadline and the idle time
start (R377, R386, R388). While the Head Keeper is halted the first read is due and waits for it (R443, R496, assumption row 79). -/
def State.afterAsk (s : State) : State :=
  let s1 := (s.settleReg R.stepPollNs).settleReg R.stepDeadlineUs
  let idle := s1.get F.jobIdleSS
  let s3 := if idle = 0 then s1.disarm tmIdle else s1.arm tmIdle idle
  let s4 := s3.arm tmDeadline s3.deadlineUs
  if s4.keeperOn 8 then s4.pollSlot else s4.arm tmPoll 0

/-! ### Unit resets -/

/-- Counter registers that a Hive zeroisation returns to zero (R100, R125, R155, R227, R328), with the scale table, the unit
status words and CLU_FLUSH. DESIGN CHOICE (assumption row 96): SEL_STATUS is one of them, so its LAYER and HALF no longer show what was
selected last (R126). -/
def zeroisedReg (off : Nat) : Bool :=
  (decide (0x10000 ≤ off ∧ off < 0x20000) &&
    (off % 0x4000 == 0x4 || decide (0x20 ≤ off % 0x4000 ∧ off % 0x4000 < 0x118))) ||
  decide (0x20100 ≤ off ∧ off < 0x30000) ||
  (decide (0x40000 ≤ off ∧ off < 0x50000) &&
    (off % 0x800 == 0x4 || off % 0x800 == 0xC || decide (0x20 ≤ off % 0x800 ∧ off % 0x800 < 0x48))) ||
  off == R.ladleStatus || off == R.swarmStatus || decide (0x50100 ≤ off ∧ off < 0x50400)

/-- Credits of a class come to be owed: its CREDIT is ready from now on (R27, R213). -/
def DiePort.owe (p : DiePort) (cls n : Nat) : DiePort :=
  { p with owed := updAt p.owed cls (· + n), turn := if 0 < n && !p.turn.contains cls then p.turn ++ [cls] else p.turn }

/-- The units of the job partition drop their work (R100, R125, R155, R227, R328, R368); staged die-port messages are
discarded and their credits owed. -/
def State.unitsReset (s : State) : State :=
  { s.put F.whiskScaleSetPend 0 with
    regs := (s.put F.whiskScaleSetPend 0).regs.filter (fun p => !zeroisedReg p.1)
    sieves := s.sieves.map (fun _ => SieveSt.reset)
    clus := s.clus.map (fun c => { Cluster.reset with evSeq := c.evSeq })
    tiles := TileTbl.reset
    swarm := { Swarm.reset with mark := s.swarm.mark, late := s.swarm.late }
    step := { s.step with layers := [], combQ := [[], [], [], []], torn := s.step.torn }
    ports := s.ports.map (fun p =>
      let back := fun (l : List Staged) => sumNat (l.map (fun m => ceilDiv (32 + m.body.length) 4096 - m.owed))
      (({ DiePort.reset with held := p.held, owed := p.owed, turn := p.turn }.owe 0 (back p.hs)).owe 1 (back p.res)).owe 2
        (back p.swm)) }

/-- Bytes of a packet in all: its own, or by its first header while it is still arriving. -/
def TxPkt.length (p : TxPkt) : Nat := if p.whole then p.total else p.relayTotal

/-- R300: what a partition reset does to a packet queued for transmission on link n; one of VC2 or VC3 in progress goes on with
zeros. One of VC1 in progress takes the rest of its payload out of the Hive now, through a handle that is checked once more (R167);
the accesses of its payload were asked for with its first flit. -/
def State.abandonTx (s : State) (n : Nat) (p : TxPkt) : Option TxPkt × State :=
  if p.sent = 0 then (if 2 ≤ p.vc ∨ p.pay.isSome then none else some p, s)
  else if 2 ≤ p.vc then
    (some { p with pab := true, whole := true, bytes := padTo p.length (p.bytes.take (240 * p.sent)), pay := none, slots := [],
                   held := 0 }, s)
  else
    let (s1, q) := s.readPay n p
    (some (match q.pay with
      | some (h, len) => { q with bytes := q.bytes ++ s1.payload h len, pay := none, slots := [] }
      | none => q), s1)

/-- R300 for packets of one link, in order. -/
def State.abandonAll (s : State) (n : Nat) : List TxPkt → List TxPkt × State
  | [] => ([], s)
  | p :: r =>
    let (x, s1) := s.abandonTx n p
    let (xs, s2) := s1.abandonAll n r
    (x.toList ++ xs, s2)

/-- R300 for the transmit queues of link n. -/
def State.linkAbandon (s : State) (n : Nat) : State :=
  ([0, 1, 2, 3] : List Nat).foldl (fun s v =>
    let (q, s1) := s.abandonAll n ((s.link n).tx.q.getD v [])
    s1.updTx n (fun t => { t with q := updAt t.q v (fun _ => q) })) s

/-- Packets in the receive buffers of VC1 to VC3 are discarded; one still arriving is discarded as it arrives. -/
def State.dropRx (s : State) (n v : Nat) : State :=
  let q := s.rxq n v
  let held := sumNat ((q.filter (fun p => p.relay.isNone)).map (·.places))
  (s.setRxq n v ((q.filter (fun p => p.relay.isSome || !p.whole)).map (fun p =>
    if p.relay.isSome then p else { p with relay := some 64, places := 0, taken := none }))).freePlaces n v held

/-- R300, R227: the link side of a partition reset and of a zeroisation at a job's end; the places of the relayed flits that
go are free again (R269). -/
def State.linksReset (s0 : State) : State :=
  let s1 := (List.range 64).foldl State.linkAbandon (s0.freeHeld (s0.links.flatMap (fun l => (l.tx.q.drop 2).flatten)))
  let (held, s2) := s1.abandonAll 0 s1.limbo
  (List.range 64).foldl (fun s n => ([1, 2, 3] : List Nat).foldl (fun s v => s.dropRx n v) s) { s2 with limbo := held }

/-- R256, R435: the roster after a partition reset or the end of membership; a joiner's state goes with it. A revision that still
runs counts as abandoned, a committed one that is pending does not (DESIGN CHOICE, assumption row 96). What an outsider may not send is
withdrawn from the links (R425). -/
def State.rosterReset (s : State) : State :=
  let s1 := { s with roster := Roster.reset }
  let s2 := if s.roster.rev.isSome then s1.inc R.rosterAbortCnt 1 else s1
  let s3 := ((((s2.put F.bootStageMember 0).setWord R.rosterEpoch 0).setWord R.rosterActStep 0).setWord R.rosterDigest 0)
  let s4 := (((s3.put F.rosterStatusPhase 0).put F.rosterStatusLeader 0).put F.rosterStatusMembers 0).put
    F.rosterStatusCopy 0
  ((s4.disarm tmRev).disarm tmJoin).hushLinks

/-- A drain in progress is at state 3 from now on (R255, R256). -/
def State.drainLeft (s : State) : State :=
  let d := s.get F.rosterStatusDrain
  if d = 1 ∨ d = 2 then s.put F.rosterStatusDrain 3 else s

/-! ### Partition reset (R468) -/

/-- Timers of the job stop with it. -/
def State.stopJobTimers (s : State) : State :=
  (((((s.disarm tmPoll).disarm tmDeadline).disarm tmIdle).disarm tmBar)).updJob (fun j => { j with reads := [], held := none })

/-- R468: LOSS, the Ask of the faulted step unless it stands already, FAULT, zeroisation and the units' resets. DESIGN CHOICE
(assumption row 96): the pending captures and held writes of the 64-bit pairs stay (R9). -/
def State.partitionReset (s : State) (askToo : Bool) (next : AfterZero) : State :=
  let st := s.jobState
  let s1 := if s.member then s.sendLoss s.self (seqAdd s.curSeq 2) [] else s
  let seq := if s1.step.inProg then s1.stepSeq else s1.nextSeq
  let s2 := { s1 with step := { s1.step with endedAt := if s1.step.ended then s1.step.endedAt else s1.chip.now } }
  let s3 := if askToo && st != jsSaving then
      s2.writeAsk ⟨seq, stPartition, false, false, st == jsEnding, s2.step.inProg, s2.step.inProg⟩ else s2
  let s4 := (((s3.raise evFault).inc R.rasPartitionCnt 1).put F.rasStatusLastAction 1)
  let s5 := ((s4.zeroStart 1).linksReset.unitsReset.rosterReset.drainLeft.stopJobTimers).partitionRegs
  let s6 := { s5.resetStep with
    bar := Barrier.reset, swarm := Swarm.reset,
    power := { s5.power with gap := none, hist := [], timed := none, wakeAt := none }, effOld := [] }
  ((s6.disarmOneShots).put F.rasStatusPartBusy 1).updJob (fun j => { j with after := next, savedLqf := none })

/-- A partition reset ends the job: no end is pending any more (R389, R407). The keys stay until the pass is over, so that the LOSS
still leaves (R295, R396, R473). -/
def State.zeroising (s : State) (reason : Nat) : State :=
  (((s.put F.jobStatusState jsZeroising).put F.jobStatusEndReason reason).put F.jobStatusEndPending 0).updJob (fun j =>
    { j with endSeq := none })

/-- ABORT's partition reset and the end of the job after it (R401). -/
def State.abortJob (s : State) (reason : Nat) : State :=
  let s1 := s.partitionReset false .endJob
  s1.zeroising reason

/-! ### Teardown (R471) -/

def State.teardown (s : State) (x : Nat) : State :=
  if s.step.torn.contains x then s
  else
    let s1 := (s.updStep (fun t => { t with
      torn := t.torn ++ [x], tornEarly := if t.inProg then t.tornEarly else t.tornEarly ++ [x] })).inc R.rasTeardownCnt 1
    let s2 := { s1 with clus := s1.clus.map (fun (c : Cluster) => { c with teardown := insertAsc x c.teardown }) }
    (s2.put F.rasStatusLastAction 2).raise evFault

/-! ### Control errors (R464 to R467, R474) -/

/-- Sources whose errors may name a stream (R464). -/
def attributableSrc (src : Nat) : Bool := src == srcStale || src == 0x0F || src == srcStreamEntry

/-- The stream an error is attributable to: its source allows it and the stream is PRESENT. -/
def State.attributed (s : State) (e : CtrlErr) : Option Nat :=
  match e.stream with
  | some x => if attributableSrc e.src && s.present x then some x else none
  | none => none

/-- The error log records the lowest SRC of the cycle (R467, R474). -/
def State.logErrors (s : State) : State :=
  match s.errs.reverse with
  | [] => s
  | e0 :: es =>
    let e := es.foldl (fun a b => if b.src < a.src then b else a) e0
    let w := at_ 24 e.src ||| at_ 23 1 ||| at_ 22 (b2n (s.attributed e).isSome) ||| at_ 16 e.unit |||
      at_ 0 ((s.attributed e).getD 0)
    let t : Word := BitVec.ofNat 32 s.chip.now
    let s1 := (s.setWord R.rasErrLast w).setWord R.rasErrLastT t
    let s2 := if s1.flag F.rasErrFirstValid then s1 else (s1.setWord R.rasErrFirst w).setWord R.rasErrFirstT t
    s2.inc R.rasCtrlErrCnt s.errs.length

/-- Errors found while a partition reset runs are logged and counted alone (R466). -/
def State.noteErrors (s : State) : State := if s.errs.isEmpty then s else { s.logErrors with errs := [] }

/-- The control errors of the command are acted on together (R465 to R467). -/
def State.actOnErrors (s : State) : State :=
  if s.errs.isEmpty then s
  else State.noteErrors <|
    let names := s.errs.reverse.map s.attributed
    let s1 := { s.logErrors with errs := [] }
    let st := s.jobState
    if s.flag F.rasStatusPartBusy then s1
    else if st = jsRunning then
      let streams := (names.filterMap id).foldl (fun acc x => if acc.contains x then acc else acc ++ [x]) []
      let fresh := streams.filter (fun x => !s.step.torn.contains x)
      if s.job.policy.1 = 1 ∧ names.all (·.isSome) ∧ s.tornShown.length + fresh.length ≤ s.job.policy.2 then
        fresh.foldl State.teardown s1
      else s1.partitionReset true .toFaulted
    else if st = jsEnding ∨ st = jsSaving then
      (s1.partitionReset true .endJob).zeroising 3
    else s1

/-! ### The end of a job (R396) -/

/-- Step 3 of R396: membership ends and the Hive is zeroised; the keys are erased with the pass. -/
def State.endJob (s : State) (reason : Nat) : State :=
  let s1 := (s.put F.jobStatusState jsZeroising).put F.jobStatusEndReason reason
  let s2 := s1.stopJobTimers.linksReset.rosterReset.drainLeft.unitsReset
  let s3 := { (s2.resetStep.put F.swarmBarStatusState 0).put F.swarmBarStatusRoot 0 with bar := Barrier.reset, swarm := Swarm.reset }
  let s4 := (s3.put F.jobStatusEndPending 0).settleRegs.zeroStart (if reason = 2 then 3 else 2)
  s4.updJob (fun j => { j with after := .endJob, endSeq := none })

/-! ### The end of a command -/

/-- The control errors found so far in a command act before it goes on, and end it where they reset the partition (R465, R468). -/
def State.unlessReset (s : State) (act : State → State) : State :=
  let t := s.actOnErrors
  if t.flag F.rasStatusPartBusy then t else act t

/-- What a command's result becomes: its control errors are acted on, and the machine goes on. -/
def State.fin (s : State) : Host.Outcome State Fault Refusal := .next s.actOnErrors

end Sys2Proof.Machine
end

