-- ==== Sys2Proof/Machine/Halves.lean ====
section
/-! DEFINITION. Machine/Halves.lean: the (layer, half) records of the running step (R15 to R17), their tokens by die port
and arrival index, and the gap before each layer (R446, R447). -/

namespace Sys2Proof.Machine

/-! ### The records -/

def PortHalf.empty : PortHalf := ⟨[], false, 0, 0, false⟩

/-- A (layer, half) at its first use in the step (R243: the epoch in force at the step). -/
def State.newHalf (s : State) : HalfRec :=
  { ports := List.replicate 4 PortHalf.empty, cap := 0, epoch := s.epochAt s.stepSeq,
    members := s.membersAt s.stepSeq, th := 0, queues := List.replicate 32 [], handed := List.replicate 32 0,
    mans := List.replicate 32 [], sentHdrs := [], sentPkts := [], rx := [], rxDone := false,
    tilesOf := [], locRows := [], tails := [], tailsDone := false, mansReady := false, tilesSent := [0, 0, 0, 0], manSent := [false, false, false, false], perStream := [] }

def State.newLayer (s : State) (l : Nat) : LayerRec :=
  { layer := l, flying := false, halves := [s.newHalf, s.newHalf], sat := 0, unf := 0, digest := 0 }

def State.layerRec (s : State) (l : Nat) : LayerRec := (s.step.layers.find? (fun r => r.layer == l)).getD (s.newLayer l)

/-- Change a layer's record, made on first use. -/
def State.updLayer (s : State) (l : Nat) (f : LayerRec → LayerRec) : State :=
  if s.step.layers.any (fun r => r.layer == l) then
    s.updStep (fun t => { t with layers := t.layers.map (fun r => if r.layer = l then f r else r) })
  else
    let r := f (s.newLayer l)
    s.updStep (fun t => { t with layers := t.layers ++ [r] })

def State.half (s : State) (l h : Nat) : HalfRec := (s.layerRec l).halves.getD h s.newHalf

def State.updHalf (s : State) (l h : Nat) (f : HalfRec → HalfRec) : State :=
  s.updLayer l (fun r => { r with halves := updAt r.halves h f })

def HalfRec.port (r : HalfRec) (a : Nat) : PortHalf := r.ports.getD a PortHalf.empty

def State.portHalf (s : State) (l h a : Nat) : PortHalf := (s.half l h).port a

def State.updPort (s : State) (l h a : Nat) (f : PortHalf → PortHalf) : State :=
  s.updHalf l h (fun r => { r with ports := updAt r.ports a f })

def State.tok (s : State) (l h a i : Nat) : Option Tok := (s.portHalf l h a).toks[i]?

def State.updTok (s : State) (l h a i : Nat) (f : Tok → Tok) : State :=
  s.updPort l h a (fun p => { p with toks := updAt p.toks i f })

def PortHalf.live (p : PortHalf) : List Tok := p.toks.filter (fun t => t.passed == 0)

/-- Every region's LAST_OF_HALF tile has arrived (R117). -/
def State.halfLast (s : State) (l h : Nat) : Bool :=
  (List.range s.nRegions).all (fun a => (s.portHalf l h a).last)

/-- Layers in flight (R17). -/
def State.inFlight (s : State) : List Nat := (s.step.layers.filter (·.flying)).map (·.layer)

def State.layerDone (s : State) (l : Nat) : Bool := s.step.done.contains l

/-! ### The gap before a layer (R446 to R448) -/

/-- CLK_WAKE.MARGIN and E1_MIN in ns. -/
def State.marginNs (s : State) : Nat := s.slotGet F.clkWakeMargin
def State.e1MinNs (s : State) : Nat := 10 * s.slotGet F.clkPwrCtlE1Min

def noObs (_ : Nat) : List Nat := []

def State.gapHist (s : State) (l : Nat) : List Nat := SMap.get noObs s.power.hist l

/-- R441, but for the prediction. -/
def State.e2Allowed (s : State) : Bool := decide (2 ≤ s.slotGet F.clkPwrCtlDeepest) && !s.member

/-- The start of the gap before layer l: the state of R447 is chosen, and WAKE is armed with it. -/
def State.gapStart (s0 : State) (l : Nat) : State :=
  let s := s0.settleGap
  let hs := s.gapHist l
  let p := 10 * hs.foldl min (hs.headD 0)
  let l1 := 80 + s.marginNs
  let l2 := 25000 + s.marginNs
  let plan :=
    if hs.length < 4 then 0
    else if s.e2Allowed && decide (1000 * s.slotGet F.clkPwrCtlE2Min ≤ p) && decide (l2 < p) &&
        SMap.get zeroAt s.power.bars l == 0 then 2
    else if l1 + s.e1MinNs < p then 1 else 0
  let lead := if plan = 2 then l2 else l1
  let s1 := { s with power := { s.power with gap := some (l, s.chip.now), plan := plan, timed := none, woke := false,
                                             wakeAt := if plan = 0 then none else some (s.chip.now + p - lead) } }
  if plan = 0 then s1 else s1.arm tmWake (ceilDiv (p - lead) 10)

/-- The arrival of the first HS_TILE of layer l ends its gap (R446); an arrival before the engine has returned to E0 from
the sleep of the gap is a miss (R448), and one in E1 after an early wake is none (R449). A bar is counted from the step of
its miss, which it covers too, so it stands for BAR steps after it. -/
def State.gapEnd (s : State) (l : Nat) : State :=
  match s.power.gap with
  | none => s
  | some (g, t0) =>
    if g ≠ l then s
    else
      let obs := (s.chip.now - t0) / 10
      let miss := !s.awake && !s.power.woke
      let hist := SMap.set noObs s.power.hist l ((obs :: s.gapHist l).take 4)
      let barred := miss && s.get F.clkStateState == 2
      let s1 := { s with power := { s.power with
        gap := none, timed := none, wakeAt := none
        hist := if barred then SMap.set noObs s.power.hist l [] else hist
        bars := if barred then SMap.set zeroAt s.power.bars l (s.slotGet F.clkWakeBar + 1) else s.power.bars } }
      let s2 := s1.disarm tmWake
      if miss then s2.inc R.clkMissCnt 1 else s2

/-- Histories are cleared at model load, resume and partition reset (R446). -/
def State.clearGaps (s : State) : State :=
  { s with power := { s.power with gap := none, hist := [], bars := [], timed := none, wakeAt := none } }

end Sys2Proof.Machine
end

