-- ==== Sys2Proof/Machine/Select.lean ====
section
/-! DEFINITION. Machine/Select.lean: scoring and expert selection of one token (R108 to R116), on binary32 codes. -/

namespace Sys2Proof.Machine

/-- The canonical NaN of binary32. -/
def nan32 : Nat := 0x7FC00000

/-- The largest non-NaN of a list of codes, or none. -/
def maxNum32 (zs : List Nat) : Option Nat :=
  zs.foldl (fun m z =>
    if isNan32 z then m
    else match m with
      | none => some z
      | some y => if FV.lt (dec32 y) (dec32 z) then some z else some y) none

/-- R109: softmax with max-subtraction. -/
def softmax (zs : List Nat) : List Nat :=
  match maxNum32 zs with
  | none => zs.map (fun _ => nan32)
  | some m =>
    let e := zs.map (fun z =>
      if isNan32 z then nan32
      else if dec32 m = .inf false then (if dec32 z = .inf false then one32 else 0)
      else if dec32 m = .inf true then one32
      else exp32 (sub32 z m))
    let sum := e.foldl (fun a x => if isNan32 x then a else add32 a x) 0
    e.map (fun x => if isNan32 x then nan32 else div32 x sum)

/-- R109, R110: the unbiased scores. -/
def scoresOf (r : SelRec) (zs : List Nat) : List Nat :=
  if r.score = 0 then softmax zs else if r.score = 1 then zs.map sig32 else zs

/-- R111: the biased scores. -/
def biasedOf (r : SelRec) (ps bias : List Nat) : List Nat :=
  ps.mapIdx (fun j p => add32 p (if r.biasEn then bias.getD j 0 else 0))

/-- The `n` candidates that rank highest under R108, best first. -/
def topRanked (n : Nat) (cs : List (Nat × Nat)) : List (Nat × Nat) := (sortBy ranksAbove cs).take n

/-- R113: the score of one group. -/
def groupScore (r : SelRec) (ys : List (Nat × Nat)) : Nat :=
  match topRanked 2 ys with
  | [] => nan32
  | [a] => a.1
  | a :: b :: _ => if r.gscore then add32 a.1 b.1 else a.1

/-- R113: the eligible experts with their biased scores. -/
def eligible (r : SelRec) (ys : List Nat) : List (Nat × Nat) :=
  let cs := ys.zipIdx
  if r.g = 1 ∨ r.tg = r.g then cs
  else
    let size := r.n / r.g
    let gs := (List.range r.g).map (fun j => (groupScore r (cs.filter (fun c => c.2 / size == j)), j))
    let kept := (topRanked r.tg gs).map (·.2)
    cs.filter (fun c => kept.contains (c.2 / size))

/-- R115: gate weights from the unbiased scores in rank order; the NaN weights, made +0, are counted. -/
def gateWeights (r : SelRec) (ps : List Nat) : List Nat × Nat :=
  let sum := ps.foldl add32 0
  let raw := ps.map (fun p => if r.norm = 1 then mul32 (div32 p sum) r.scale else mul32 p r.scale)
  (raw.map (fun g => if isNan32 g then 0 else g), (raw.filter isNan32).length)

/-- The selection of a token: expert, unbiased score and gate weight by rank, and the NaN scores and weights counted. -/
structure Selection where
  experts : List Nat
  scores : List Nat
  weights : List Nat
  nans : Nat
  deriving DecidableEq, Repr

/-- R109 to R115. -/
def selectToken (r : SelRec) (bias zs : List Nat) : Selection :=
  let ps := scoresOf r zs
  let ys := biasedOf r ps bias
  let ex := (topRanked r.k (eligible r ys)).map (·.2)
  let sc := ex.map (fun e => ps.getD e nan32)
  let w := gateWeights r sc
  ⟨ex, sc, w.1, (ys.filter isNan32).length + w.2⟩

/-- The leaves of a token: routed experts by rank, then shared experts (R114 to R116, R305). -/
def leavesOf (r : SelRec) (x : Selection) (self : Nat) : List Leaf :=
  (x.experts.zip x.weights).mapIdx (fun i p =>
    { leaf := i, expert := p.1, rank := i, g := p.2, dest := self, st := .open_ }) ++
  (List.range r.shared).map (fun j =>
    { leaf := r.k + j, expert := 1024 + j, rank := j, g := r.sharedW, dest := self, st := .open_ })

end Sys2Proof.Machine
end

