-- ==== Sys2Proof/Machine/Sieve.lean ====
section
/-! DEFINITION. Machine/Sieve.lean: the Sieve gate arrays (spec/04): shapes, the tile store and its pager, the weight
registers, token blocks streaming through tiles into the accumulator, the current floor, and the selection of scored
tokens. What the array can do it does at once: time passes only between commands (assumption row 101). -/

namespace Sys2Proof.Machine

def State.sieve (s : State) (a : Nat) : SieveSt := s.sieves.getD a SieveSt.reset

def State.updSieve (s : State) (a : Nat) (f : SieveSt → SieveSt) : State := { s with sieves := updAt s.sieves a f }

/-! ### Shapes (R70, R82) -/

/-- Bands of shape code 1 to 3. -/
def shapeBands (sh : Nat) : Nat := if sh = 3 then 4 else if sh = 2 then 2 else 1

def shapeRows (sh : Nat) : Nat := 256 / shapeBands sh

/-- Logical columns, and accumulator entries per token. -/
def shapeCols (sh : Nat) : Nat := 256 * shapeBands sh

/-- The largest token block of a shape. -/
def shapeBlock (sh : Nat) : Nat := 2048 / shapeBands sh

/-- Column groups and reduction slices of a layer in a shape. -/
def GateRec.groups (g : GateRec) (sh : Nat) : Nat := ceilDiv g.n (shapeCols sh)

def GateRec.slices (g : GateRec) (sh : Nat) : Nat := ceilDiv g.kr (shapeRows sh)

/-- Tiles of a token block (R80). -/
def GateRec.tiles (g : GateRec) (sh : Nat) : Nat := g.groups sh * g.slices sh

/-- The cost of `t` tokens in a shape (R82 steps 1 and 2). -/
def shapeCost (g : GateRec) (sh t : Nat) : Nat :=
  let b := shapeBlock sh
  let per := fun (n : Nat) => g.tiles sh * max (n * tokenInterval g.fmt) (shapeRows sh)
  t / b * per b + (if t % b = 0 then 0 else per (t % b))

/-- R82: the shape for a predicted token count; ties take the larger R. -/
def chooseShape (g : GateRec) (mode tp : Nat) : Nat :=
  if mode ≠ 0 then mode
  else if tp = 0 then 1
  else ([2, 3] : List Nat).foldl (fun best sh => if shapeCost g sh tp < shapeCost g best tp then sh else best) 1

/-- The shape that Sieve a takes for a (layer, half) that it starts now; SIEVE_CTL takes effect then (R102). -/
def State.shapeFor (s : State) (a l h : Nat) : Nat :=
  chooseShape (s.gateRec l) (s.get (F.sieveCtlShapeMode a)) (SMap.get zeroAt (s.sieve a).tp (2 * l + h))

/-! ### Pages and the tile store (R93 to R95) -/

def GateRec.pages (g : GateRec) : Nat := g.pageRows * g.pageCols

/-- R94: a layer that fits a window of 8 MiB with its column sums is resident. -/
def GateRec.resident (g : GateRec) : Bool := decide (g.bytes + g.csumBytes ≤ 0x800000)

/-- The pages of tile (g, q): page columns of its bands, page rows of its slice. -/
def GateRec.tilePages (r : GateRec) (sh g q : Nat) : List (Nat × Nat) :=
  let cols := (List.range (shapeBands sh)).map (fun b => g * shapeBands sh + b)
  let rows := (List.range (shapeRows sh / 64)).map (fun p => q * (shapeRows sh / 64) + p)
  (cols.filter (fun c => decide (c < r.pageCols))).flatMap (fun c =>
    (rows.filter (fun p => decide (p < r.pageRows))).map (fun p => (c, p)))

/-- The pages of the tile at a place of a block. -/
def GateRec.pagesAt (r : GateRec) (sh i : Nat) : List (Nat × Nat) := r.tilePages sh (i / r.slices sh) (i % r.slices sh)

/-- Every page in the order of R80, from the tile at place i on. -/
def GateRec.pagesFrom (r : GateRec) (sh i : Nat) : List (Nat × Nat) :=
  (List.range (r.tiles sh - i)).flatMap (fun k => r.pagesAt sh (i + k))

/-- Every page in the order in which the gate region stores them (R93). -/
def GateRec.pagesStored (r : GateRec) : List (Nat × Nat) :=
  (List.range r.pageCols).flatMap (fun c => (List.range r.pageRows).map (fun p => (c, p)))

/-- The bytes of a page in the gate region. -/
def State.pageBytes (s : State) (g : GateRec) (cp : Nat × Nat) : List Byte :=
  s.hget (s.hive.layout.gateBase + 64 * g.pageOff + g.pageAt cp.1 cp.2) (g.pageSize cp.1)

def SieveSt.page (x : SieveSt) (l pass : Nat) (cp : Nat × Nat) : Option SievePage :=
  x.store.find? (fun p => p.layer == l && p.pass == pass && p.col == cp.1 && p.row == cp.2)

def SieveSt.holds (x : SieveSt) (l pass : Nat) (cp : Nat × Nat) : Bool := (x.page l pass cp).isSome

/-- Bytes of pages in the tile store, those of a pass or all. -/
def SieveSt.storeBytes (x : SieveSt) : Nat := sumNat (x.store.map (fun p => p.bytes.length))

def SieveSt.passBytes (x : SieveSt) (pass : Nat) : Nat :=
  sumNat ((x.store.filter (fun p => p.pass == pass)).map (fun p => p.bytes.length))

/-- One window, and both as a ring (R94). -/
def windowBytes : Nat := 0x800000

def ringBytes : Nat := 0x1000000

/-- The pages of the passes before one leave the tile store. -/
def SieveSt.dropBefore (x : SieveSt) (pass : Nat) : SieveSt :=
  { x with store := x.store.filter (fun p => decide (pass ≤ p.pass))
           csums := x.csums.filter (fun p => decide (pass ≤ p.1)) }

/-! ### Tokens of the current (layer, half) -/

/-- Arrival indices of the tokens that enter blocks (R80, R507). -/
def PortHalf.liveIdx (p : PortHalf) : List Nat := indicesFrom (fun (t : Tok) => t.passed == 0) 0 p.toks

/-- Tokens present of the current block, and whether it is closed (R80). -/
def State.blockSize (s : State) (a l h : Nat) : Nat :=
  min (shapeBlock (s.sieve a).shape) ((s.portHalf l h a).liveIdx.length - (s.sieve a).base)

def State.blockClosed (s : State) (a l h : Nat) : Bool :=
  (s.portHalf l h a).last || s.blockSize a l h == shapeBlock (s.sieve a).shape

/-- Every token of the (layer, half) has streamed, and no more can come. -/
def State.halfStreamed (s : State) (a l h : Nat) : Bool :=
  (s.portHalf l h a).last && decide ((s.portHalf l h a).liveIdx.length ≤ (s.sieve a).base)

/-- The array has switched in the last tile of the (layer, half) it was started on (R505). -/
def State.sieveDone (s : State) (a : Nat) : Bool :=
  match (s.sieve a).cur with
  | none => true
  | some (l, h) => s.halfStreamed a l h

/-- The next (layer, half) in the order of R16. -/
def State.nextHalf (s : State) (a : Nat) : Option (Nat × Nat) :=
  match (s.sieve a).cur with
  | none => some (0, 0)
  | some (l, 0) => some (l, 1)
  | some (l, _) => if l + 1 < s.modelLayers then some (l + 1, 0) else none

/-- The layer after l, wrapping to 0 (R95). -/
def State.layerAfter (s : State) (l : Nat) : Nat := if l + 1 < s.modelLayers then l + 1 else 0

/-- The pass that no token block has begun to stream. -/
def SieveSt.freshPass (x : SieveSt) : Nat :=
  if x.cur.isNone || (x.streamed && x.tile == 0) then x.pass else x.pass + 1

/-- The pass of the next (layer, half): a resident layer keeps its pages for both halves. -/
def State.passOf (s : State) (a l : Nat) : Nat :=
  let x := s.sieve a
  match x.cur with
  | some (c, _) => if c = l && (s.gateRec l).resident then x.pass else x.freshPass
  | none => x.freshPass

/-! ### Weight registers (R69, R71, R84) -/

/-- Cell codes of array row r (of the layer) in a page: one per column of the page. -/
def pageCells (g : GateRec) (p : SievePage) (r : Nat) : List Nat :=
  let n := g.colWidth p.col
  let b := cellBytes g.fmt
  let row := (p.bytes.drop (r % 64 * n * b)).take (n * b)
  (List.range n).map (fun j => leNat ((row.drop (b * j)).take b))

/-- E8M0 shifts of block b of a page, one per column. -/
def pageShifts (g : GateRec) (p : SievePage) (b : Nat) : List Nat :=
  let n := g.colWidth p.col
  ((p.bytes.drop (64 * n * cellBytes g.fmt + b * n)).take n).map (·.toNat)

/-- The pages of one page row of a tile, in band order. -/
def SieveSt.rowPages (x : SieveSt) (g : GateRec) (l pass sh grp row : Nat) : List SievePage :=
  ((List.range (shapeBands sh)).filterMap (fun b =>
    let c := grp * shapeBands sh + b
    if c < g.pageCols then x.page l pass (c, row) else none))

/-- A tile as it is loaded into the shadow registers: rows past Kr and columns past N are masked. -/
def SieveSt.loadTile (x : SieveSt) (g : GateRec) (l pass sh i : Nat) : SieveTile :=
  let grp := i / g.slices sh
  let r0 := i % g.slices sh * shapeRows sh
  let rows := min (shapeRows sh) (g.kr - r0)
  { fmt := g.fmt
    index := i
    cells := (List.range rows).map (fun k =>
      (x.rowPages g l pass sh grp ((r0 + k) / 64)).flatMap (fun p => pageCells g p (r0 + k)))
    shifts := if g.block then
        (List.range (ceilDiv rows 64)).flatMap (fun k =>
          (List.range (2 * cellElems g.fmt)).map (fun b =>
            (x.rowPages g l pass sh grp (r0 / 64 + k)).flatMap (fun p => pageShifts g p b)))
      else [] }

/-- The weight of a cell, zero where it is masked. -/
def SieveTile.weight (t : SieveTile) (row col : Nat) : Nat := (t.cells.getD row []).getD col 0

def SieveTile.shift (t : SieveTile) (block col : Nat) : Nat := (t.shifts.getD block []).getD col 0

/-- The pages of the tile at a place of the current block are in the tile store. -/
def State.tileHere (s : State) (a l pass sh i : Nat) : Bool :=
  ((s.gateRec l).pagesAt sh i).all (fun cp => (s.sieve a).holds l pass cp)

/-- The tile at place i of the current block, where it has one, loads into the shadow registers, once they are free and its
pages are there. -/
def State.loadShadow (s : State) (a l i : Nat) : State :=
  let x := s.sieve a
  if x.shadow.isSome || decide ((s.gateRec l).tiles x.shape ≤ i) || !s.tileHere a l x.pass x.shape i then s
  else s.updSieve a (fun y => { y with shadow := some (y.loadTile (s.gateRec l) l y.pass y.shape i) })

/-! ### Streaming a token through a tile (R75, R76, R80) -/

/-- A column's accumulator entry after a token has passed a tile: segments of 64 rows, added in order. A masked segment is
not added (R84). -/
def passColumn (g : GateRec) (sh : Nat) (t : SieveTile) (x : FedRow) (old col : Nat) : Nat :=
  let e := cellElems g.fmt
  let r0 := t.index % g.slices sh * shapeRows sh
  if g.floating then
    (chunksOf 64 t.cells.length (List.range t.cells.length)).foldl (fun tot seg =>
      add32 tot (seg.foldl (fun acc i =>
        add32 acc (gateTerm g x (e * (r0 + i)) (t.weight i col) (t.shift (e * i / 32) col))) 0)) old
  else
    unsigned 32 ((List.range t.cells.length).foldl (fun (acc : Int) i =>
      acc + gateIntTerm g x (e * (r0 + i)) (t.weight i col)) (old : Int))

/-- Columns of a tile that are not masked. -/
def GateRec.tileCols (g : GateRec) (sh i : Nat) : Nat := min (shapeCols sh) (g.n - i / g.slices sh * shapeCols sh)

/-- CS(j) of the record paged with the layer. -/
def SieveSt.colSum (x : SieveSt) (j : Nat) : Nat :=
  leNat (((SMap.get (fun _ => []) x.csums x.pass).drop (4 * j)).take 4)

/-- The final logits of a column group, from its accumulator entries (R75, R76). -/
def SieveSt.finish (x : SieveSt) (g : GateRec) (sh i : Nat) (f : FedRow) (entries : List Nat) : List Nat :=
  entries.mapIdx (fun c v =>
    if g.floating then logitFloat g v else logitInt g f (x.colSum (i / g.slices sh * shapeCols sh + c)) v)

/-- A token's logits grow by the columns of one group. -/
def addLogits (l h i : Nat) (zs : List Nat) (rs : List Logits) : List Logits :=
  if rs.any (fun r => r.layer == l && r.half == h && r.tok == i) then
    rs.map (fun r => if r.layer == l && r.half == h && r.tok == i then { r with zs := r.zs ++ zs } else r)
  else rs ++ [⟨l, h, i, zs⟩]

/-- The converted hidden-state row of a token (R73). -/
def State.fedOf (s : State) (l : Nat) (t : Tok) : FedRow :=
  let g := s.gateRec l
  feedRow g (hsValues t.hsFmt g.h (s.payload (t.hs.getD ⟨0, 0, 0⟩) (hsRowBytes t.hsFmt g.h)))

/-- Token i of the (layer, half), at place n of its block, streams through the tile in the active registers. With the last
tile the feeder has fed the row, and its reference goes (R178). -/
def State.feedTok (s : State) (a l h i n : Nat) (t : Tok) (tile : SieveTile) : State :=
  let g := s.gateRec l
  let f := s.fedOf l t
  let hd := t.hs.getD ⟨0, 0, 0⟩
  let size := hsRowBytes t.hsFmt g.h
  let s1 := if tile.index = 0 then ((s.postPay .sieve a false hd 0 size).inc (R.sieveSatCnt a) f.counted) else s
  let s2 := if tile.index + 1 = g.tiles (s.sieve a).shape then s1.release hd (8 * a) none else s1
  s2.updSieve a (fun y =>
    let k := n * shapeCols y.shape
    let q := tile.index % g.slices y.shape
    let es := (List.range (g.tileCols y.shape tile.index)).map (fun c =>
      passColumn g y.shape tile f (if q = 0 then 0 else SMap.get zeroAt y.acc (k + c)) c)
    { y with
      fed := y.fed + 1
      acc := SMap.write zeroAt y.acc k es
      ready := if q + 1 = g.slices y.shape then addLogits l h i (y.finish g y.shape tile.index f es) y.ready else y.ready })

/-- Every token present of the block that has not passed the active tile passes it, in block order. A row whose handle is
stale is R167's error. -/
def State.feedBlock (s : State) (a l h : Nat) (tile : SieveTile) : Nat → State
  | 0 => s
  | fuel + 1 =>
    let x := s.sieve a
    if s.blockSize a l h ≤ x.fed then s
    else
      let i := (s.portHalf l h a).liveIdx.getD (x.base + x.fed) 0
      match s.tok l h a i with
      | none => s
      | some t =>
        match s.useHandle (t.hs.getD ⟨0, 0, 0⟩) (hsRowBytes t.hsFmt (s.gateRec l).h) .sieve a none with
        | (true, s1) => (s1.feedTok a l h i x.fed t tile).feedBlock a l h tile fuel
        | (false, s1) => s1

/-- The shadow tile switches in (R81): a cell takes its shadow weight as the next tile's first token reaches it. -/
def State.switchIn (s : State) (a : Nat) (t : SieveTile) : State :=
  ((s.updSieve a (fun y => { y with active := some t, shadow := none, tile := y.tile + 1, fed := 0 })).inc
    (R.sieveTileCnt a) 1).put (F.sieveStatusBusy a) 1

/-- The array has had work: the gap that follows finds every row running (R86). -/
def SieveSt.worked (y : SieveSt) : SieveSt := { y with ramp := 1, rampStep := 0, dummyRows := 256 }

def State.floorOn (s : State) (a : Nat) : Bool := s.eff (F.sieveFloorEn a) != 0

/-- The pages of a tile that a streamed layer's block has passed leave the ring. -/
def SieveSt.freeTile (y : SieveSt) (g : GateRec) (l i : Nat) : SieveSt :=
  if y.streamed then
    { y with store := y.store.filter (fun p =>
        !(p.layer == l && p.pass == y.pass && (g.pagesAt y.shape i).contains (p.col, p.row))) }
  else y

/-- A block has passed its last tile: the next one begins; a streamed layer is fetched again for it (R94). -/
def State.endBlock (s : State) (a l h : Nat) : State :=
  let n := s.blockSize a l h
  let s1 := (s.updSieve a (fun y =>
    { (if y.streamed then { y with pass := y.pass + 1 } else y) with
        base := y.base + n, tile := 0, fed := 0, acc := [] })).put (F.sieveStatusBusy a) 0
  if s1.halfStreamed a l h then s1.put (F.sieveStatusShape a) 0 else s1.loadShadow a l 0

/-- The array goes on as far as its tokens and pages let it (R80, R81, R96). -/
def State.sieveRun (s : State) (a l h : Nat) : Nat → State
  | 0 => s
  | fuel + 1 =>
    let x := s.sieve a
    let n := s.blockSize a l h
    if x.tile = 0 then
      let s1 := s.loadShadow a l 0
      match (s1.sieve a).shadow with
      | some t => if n = 0 then s1 else ((s1.switchIn a t).loadShadow a l 1).sieveRun a l h fuel
      | none => s1
    else match x.active with
      | none => s
      | some t =>
        let s1 := if x.fed < n then
            (s.feedBlock a l h t (n - x.fed)).updSieve a SieveSt.worked
          else s
        if !s1.blockClosed a l h || decide ((s1.sieve a).fed < s1.blockSize a l h) then s1
        else if x.tile = (s1.gateRec l).tiles x.shape then
          ((s1.updSieve a (fun y => y.freeTile (s.gateRec l) l t.index)).endBlock a l h).sieveRun a l h fuel
        else
          let s2 := s1.loadShadow a l x.tile
          match (s2.sieve a).shadow with
          | none => s2
          | some u =>
            let s3 := (s2.updSieve a (fun y => y.freeTile (s.gateRec l) l t.index)).switchIn a u
            (if x.tile + 1 < (s.gateRec l).tiles x.shape then s3.loadShadow a l (x.tile + 1) else s3).sieveRun a l h fuel

/-- A half that has come to its end leaves the array idle (R83). Pages of a streamed layer that were fetched for a token block
that did not come leave the ring with its second half. -/
def State.sieveIdle (s : State) (a l h : Nat) : State :=
  if s.halfStreamed a l h then
    let s1 := (s.put (F.sieveStatusShape a) 0).put (F.sieveStatusBusy a) 0
    if h = 1 && s.layerAfter l != l then
      s1.updSieve a (fun y => if y.streamed then { y with store := y.store.filter (fun p => p.layer != l) } else y)
    else s1
  else s

/-- Tokens of a half are still to be selected. -/
def State.selBusy (s : State) (a l h : Nat) : Bool :=
  s.inStep && (s.portHalf l h a).toks.any (fun t => !t.scored && t.passed == 0)

/-- SEL_STATUS shows a (layer, half): whether its tokens are being selected and its capacity pass runs (R126). -/
def State.selShow (s : State) (a l h : Nat) : State :=
  (((s.put (F.selStatusLayer a) l).put (F.selStatusHalf a) h).put (F.selStatusBusy a) (b2n (s.selBusy a l h))).put
    (F.selStatusCapPass a) (b2n ((s.half l h).cap == 1))

/-- SEL_STATUS shows the half whose logits head the scoring unit, and the last one shown while there are none. When a half becomes the
one shown, and what of it counts as BUSY, is the model's choice (R126; DESIGN CHOICE, assumption row 96). -/
def State.selRefresh (s : State) (a : Nat) : State :=
  match (s.sieve a).ready with
  | r :: _ => s.selShow a r.layer r.half
  | [] => s.selShow a (s.get (F.selStatusLayer a)) (s.get (F.selStatusHalf a))

/-- Sieve a goes on with the (layer, half) that it was started on. -/
def State.sieveGo (s : State) (a : Nat) : State :=
  match (s.sieve a).cur with
  | none => s
  | some (l, h) =>
    if !s.inStep || (s.sieve a).bad.contains l then s
    else
      let blocks := (s.portHalf l h a).liveIdx.length / shapeBlock (s.sieve a).shape + 1
      ((s.sieveRun a l h (blocks * ((s.gateRec l).tiles (s.sieve a).shape + 2))).sieveIdle a l h).selRefresh a

/-! ### The pager (R94 to R96) -/

/-- The leading pages of a list that lie wholly in the first `room` bytes. -/
def GateRec.pagesWithin (g : GateRec) : Nat → List (Nat × Nat) → List (Nat × Nat)
  | _, [] => []
  | room, cp :: r =>
    if g.pageSize cp.1 ≤ room then cp :: g.pagesWithin (room - g.pageSize cp.1) r else []

/-- The current layer has no page to come for a token block beyond the one that is streaming: always so for a resident
layer, and for a streamed one once its last block is known. -/
def State.lastPass (s : State) (a : Nat) : Bool :=
  match (s.sieve a).cur with
  | none => true
  | some (l, h) =>
    (s.gateRec l).resident || (h == 1 && (s.portHalf l h a).last &&
      decide ((s.portHalf l h a).liveIdx.length ≤ (s.sieve a).base + shapeBlock (s.sieve a).shape))

/-- Another block of the streamed layer is sure to come. -/
def State.morePasses (s : State) (a l h : Nat) : Bool :=
  h == 0 || decide ((s.sieve a).base + shapeBlock (s.sieve a).shape < (s.portHalf l h a).liveIdx.length)

/-- The first page of a list that the tile store lacks, with what follows it in an order. -/
def SieveSt.missing (x : SieveSt) (l pass : Nat) (ps order : List (Nat × Nat)) : Option PageReq :=
  (ps.find? (fun cp => !x.holds l pass cp)).map (fun cp => ⟨l, pass, cp, (order.dropWhile (· != cp)).drop 1⟩)

/-- The order of R80 of a streamed layer from the tile at place i on; a resident layer's pages stay in their window (R94). -/
def GateRec.ringOrder (g : GateRec) (sh i : Nat) : List (Nat × Nat) := if g.resident then [] else g.pagesFrom sh i

/-- The order in which a layer's pages are fetched ahead: as stored, or as R80 uses them. -/
def State.aheadOrder (s : State) (a l h : Nat) : List (Nat × Nat) :=
  if (s.gateRec l).resident then (s.gateRec l).pagesStored else (s.gateRec l).pagesFrom (s.shapeFor a l h) 0

/-- The page that the pager of Sieve a fetches next: layer, pass, page column and page row. With PREFETCH = 0 it is one of
the tile that the array needs next (R95). -/
def State.pagerNext (s : State) (a : Nat) : Option PageReq :=
  let x := s.sieve a
  let ahead := match x.nextLayer with
    | none => none
    | some l =>
      if s.lastPass a then x.missing l x.freshPass (s.aheadOrder a l 0) ((s.gateRec l).ringOrder (s.shapeFor a l 0) 0) else none
  let firstOf := match s.nextHalf a with
    | none => none
    | some (l, h) =>
      let g := s.gateRec l
      let sh := s.shapeFor a l h
      x.missing l (s.passOf a l) (g.pagesAt sh 0) (g.ringOrder sh 0)
  let here := x.tile + (if x.shadow.isSome then 1 else 0)
  if bit (s.effWord (R.sieveCtl a)) 0 then
    match x.cur with
    | none => ahead
    | some (l, h) =>
      let g := s.gateRec l
      let now := if g.resident then x.missing l x.pass g.pagesStored []
        else if s.halfStreamed a l h then none
        else x.missing l x.pass (g.pagesFrom x.shape here) (g.pagesFrom x.shape here)
      match now with
      | some p => some p
      | none =>
        if !g.resident && s.morePasses a l h then
          let order := if h = 0 && !decide (x.base + shapeBlock x.shape < (s.portHalf l h a).liveIdx.length)
            then s.aheadOrder a l 1 else g.pagesFrom x.shape 0
          x.missing l x.freshPass order order
        else ahead
  else
    match x.cur with
    | none => firstOf
    | some (l, h) =>
      if s.halfStreamed a l h then firstOf
      else if x.shadow.isSome || (x.tile != 0 && !s.blockClosed a l h) then none
      else x.missing l x.pass ((s.gateRec l).pagesAt x.shape x.tile) ((s.gateRec l).ringOrder x.shape x.tile)

/-- The ring holds a streamed layer's pages in the order of R80: pages behind a missing one, which were fetched for a shape that is
not taken, leave it (R94). -/
def SieveSt.reorder (x : SieveSt) (r : PageReq) : SieveSt :=
  { x with store := x.store.filter (fun p => !(p.layer == r.layer && p.pass == r.pass && r.later.contains (p.col, p.row))) }

/-- The windows have room for a page: the ring holds 16 MiB; beside a resident layer another has one window of 8 MiB. -/
def SieveSt.pageRoom (x : SieveSt) (pass size : Nat) : Bool :=
  decide (x.storeBytes + size ≤ ringBytes) &&
    (x.streamed || (pass == x.pass && x.cur.isSome) || decide (x.passBytes pass + size ≤ windowBytes))

/-- The page that the pager fetches, where there is room for it; in a zeroisation pass it stands still (R100). -/
def State.pagerPage (s : State) (a : Nat) : Option PageReq :=
  if s.flag F.hiveZeroBusy then none
  else (s.pagerNext a).filter (fun r => ((s.sieve a).reorder r).pageRoom r.pass ((s.gateRec r.layer).pageSize r.page.1))

/-- SIEVE_STATUS's paging fields. DESIGN CHOICE (assumption row 96): of a streamed layer, the pages that lie wholly in the
first 8 MiB of the order of R80 make it ready; one that straddles the mark does not count. -/
def State.pagerStatus (s : State) (a : Nat) : State :=
  let x := s.sieve a
  match x.nextLayer with
  | none => (s.put (F.sieveStatusNextLayer a) 0).put (F.sieveStatusNextReady a) 0
  | some l =>
    let g := s.gateRec l
    let need := g.pagesWithin windowBytes (s.aheadOrder a l 0)
    let ready := s.lastPass a && !need.isEmpty && need.all (fun cp => x.holds l x.freshPass cp)
    (s.put (F.sieveStatusNextLayer a) l).put (F.sieveStatusNextReady a) (b2n ready)

/-- R505: Sieve a starts to load the first tile of the next (layer, half); SIEVE_CTL takes effect (R102). DESIGN CHOICE
(assumption row 96): SIEVE_STATUS shows the (layer, half) as being scored from this load on, and the first (layer, half) of a step
is started once the step's Recipe has been accepted. -/
def State.tileLoad (s : State) (a : Nat) : State :=
  match s.nextHalf a with
  | none => s
  | some (l, h) =>
    let s0 := s.settleReg (R.sieveCtl a)
    let g := s0.gateRec l
    let sh := s.shapeFor a l h
    let pass := s.passOf a l
    if !s.inStep || !s.sieveDone a || !s.tileHere a l pass sh 0 || (s.sieve a).bad.contains l then s
    else
      let s1 := s0.updSieve a (fun y =>
        { y.dropBefore pass with
          cur := some (l, h), shape := sh, base := 0, tile := 0, fed := 0, shadow := none, acc := [], pass := pass
          streamed := !g.resident
          nextLayer := if h = 0 then some (s.layerAfter l) else y.nextLayer })
      let s2 := ((s1.put (F.sieveStatusLayer a) l).put (F.sieveStatusHalf a) h).put (F.sieveStatusShape a) sh
      let s3 := ((s2.put (F.sieveStatusStreamed a) (b2n (!g.resident))).put (F.sieveStatusBusy a) 0).pagerStatus a
      (s3.loadShadow a l 0).sieveGo a

def srcRecGate : Nat := 0x03
def srcRecSel : Nat := 0x04

/-- A page has been fetched (R92, R95, R96): at the first page of a pass the layer's record is read and checked, and its
column sums are paged with it (R98). -/
def State.pageFetched (s : State) (a stall : Nat) : State :=
  match s.pagerPage a with
  | none => s
  | some r =>
    let l := r.layer
    let pass := r.pass
    let cp := r.page
    if s.job.model.isNone || (s.sieve a).bad.contains l then s
    else
      let first := !(s.sieve a).store.any (fun p => p.pass == pass)
      let (s0, ue) := if first then s.readMeta .sieve a (32 * l) 32 else (s, false)
      if first && (ue || !recOk 8 (s0.gateBytes l)) then
        ((s0.inc (R.sieveRecErrCnt a) 1).err srcRecGate a none).updSieve a (fun y => { y with bad := l :: y.bad })
      else
        let g := s0.gateRec l
        let addr := s0.hive.layout.gateBase + 64 * g.pageOff + g.pageAt cp.1 cp.2
        let s1 := (s0.inc (R.sievePageCnt a) 1).inc (R.sieveStallCnt a) stall
        let csum := s0.hive.layout.gateBase + 64 * g.csumOff
        let s2 := s1.post .sieve a false addr (g.pageSize cp.1)
        let s3 := (if first && g.zeroPoint then s2.post .sieve a false csum g.csumBytes else s2).updSieve a (fun y =>
          { y with
            store := (y.reorder r).store ++ [⟨l, pass, cp.1, cp.2, s0.pageBytes g cp⟩]
            csums := if first && g.zeroPoint then
                SMap.set (fun _ => []) y.csums pass (s0.hget csum g.csumBytes)
              else y.csums })
        (s3.sieveGo a).pagerStatus a

/-! ### The current floor (R85 to R88) -/

/-- The dummy pattern of a gate format, in even and odd cycles (R87). -/
def dummyCode (fmt cyc : Nat) : Nat :=
  if fmtBits fmt = 16 then (if cyc % 2 = 0 then 0x2A2A else 0x5555)
  else if fmtBits fmt = 8 then (if cyc % 2 = 0 then 0x2A else 0x55)
  else if cyc % 2 = 0 then 0x25 else 0x52

/-- The staggering register of a row in a cycle of a gap: with the floor on and the row not yet stopped, the dummy pattern of
the active weights' format; else zero. No sum of it is kept (R85 to R88). -/
def State.staggerReg (s : State) (a row cyc : Nat) : Nat :=
  let x := s.sieve a
  if s.floorOn a && decide (row < x.dummyRows) then dummyCode ((x.active.map (·.fmt)).getD 0) cyc else 0

/-- The gap has lasted GAP cycles: the ramp begins (R86 step 2). Between commands the array has no element to feed, whatever
it waits for. -/
def State.rampStart (s : State) (a : Nat) : State :=
  if s.floorOn a && (s.sieve a).ramp == 1 then
    (s.updSieve a (fun y => { y with ramp := 2, rampStep := 0 })).inc (R.sieveFloorCnt a)
      (max 64 (s.eff (F.sieveFloorGap a)))
  else s

/-- One of the sixteen steps of 125 ns, 150 F-ARITH cycles (R86): a further sixteenth of the rows stops, highest first.
DESIGN CHOICE (assumption row 96): a step's rows stop at its end, so each of the sixteen steps counts its cycles. With the
floor off no row runs the pattern and nothing is counted (R88), and the gap goes on without a ramp. -/
def State.rampStep (s : State) (a : Nat) : State :=
  if (s.sieve a).ramp = 2 then
    if s.floorOn a then
      let k := (s.sieve a).rampStep + 1
      (s.updSieve a (fun y => { y with ramp := if 16 ≤ k then 0 else 2, rampStep := if 16 ≤ k then 0 else k
                                       dummyRows := 256 - 16 * k })).inc (R.sieveFloorCnt a) 150
    else s.updSieve a SieveSt.worked
  else s

/-- The logits at the head of the scoring unit: a live token of the step whose columns are all there. -/
def State.sieveWork (s : State) (a : Nat) : Option (Nat × Nat × Nat) :=
  match (s.sieve a).ready with
  | [] => none
  | r :: _ => if (s.gateRec r.layer).n ≤ r.zs.length then some (r.layer, r.half, r.tok) else none

/-- Nothing runs in the array or the scoring unit, and the pager has nothing to fetch (R97, R440). -/
def State.sieveQuiet (s : State) (a : Nat) : Bool :=
  (s.sieve a).ready.isEmpty && (s.sieve a).ramp != 2 && !(s.floorOn a && (s.sieve a).ramp == 1) &&
    ((s.pagerPage a).isNone || s.job.model.isNone)

/-! ### Scoring (R107 to R116, R124) -/

/-- R107: the selection record and, where it is read, the bias table. -/
def State.selReadOk (s : State) (a l : Nat) : State × Bool :=
  let (s1, ue) := s.readMeta .sieve a (selBase + 32 * l) 32
  if ue || !recOk 8 (s1.selBytes l) then (s1, false)
  else if (s1.selRec l).biasEn then
    let (s2, ub) := s1.readMeta .sieve a (biasBase + 4096 * l) (4 * (s1.selRec l).n)
    (s2, !ub)
  else (s1, true)

/-- The logits of the token at the head of the scoring unit. -/
def State.headLogits (s : State) (a : Nat) : List Nat := ((s.sieve a).ready.head?.map (·.zs)).getD []

/-- The capacity pass of a (layer, half) starts or ends: CAP_PASS of the regions that show it. -/
def State.capShow (s : State) (l h : Nat) (on : Bool) : State :=
  (List.range s.nRegions).foldl (fun s a =>
    if s.get (F.selStatusLayer a) = l && s.get (F.selStatusHalf a) = h then s.put (F.selStatusCapPass a) (b2n on) else s) s

/-- The next token's selection is ready (R124). -/
def State.scoreToken (s : State) (a floorCycles : Nat) : State :=
  match s.sieveWork a with
  | none => s
  | some (l, h, i) =>
    match s.tok l h a i with
    | none => s
    | some _ =>
      if !s.inStep || (s.sieve a).bad.contains l then s
      else
        let (s0, ok) := s.selReadOk a l
        if !ok then
          ((s0.inc (R.selRecErrCnt a) 1).err srcRecSel a none).updSieve a (fun y => { y with bad := l :: y.bad })
        else
          let r := s0.selRec l
          let sel := selectToken r (s0.biases l r.n) (s0.headLogits a)
          let s1 := (s0.updTok l h a i (fun u =>
            { u with scored := true, leaves := leavesOf r sel s.self, scores := sel.scores })).updSieve a (fun y =>
              { y with ready := y.ready.drop 1 })
          let s2 := (((s1.inc (R.selTokCnt a) 1).inc (R.selNonfiniteCnt a) sel.nans).inc R.rasNonfiniteCnt sel.nans).updCnt
            (fun c => { c with nans := c.nans + sel.nans, copies := c.copies + sel.experts.length })
          let s3 := if s2.floorOn a then s2.inc (R.sieveFloorCnt a) floorCycles else s2
          s3.selRefresh a

/-- T_p of a layer's halves, taken when the layer is done (R82). -/
def State.noteTp (s : State) (l : Nat) : State :=
  (List.range 4).foldl (fun s a => ([0, 1] : List Nat).foldl (fun s h =>
    s.updSieve a (fun y => { y with tp := SMap.set zeroAt y.tp (2 * l + h) (s.portHalf l h a).live.length })) s) s

/-- The Sieves at a step's acceptance: the first (layer, half) is still to be started; what was fetched ahead of layer 0
stays. -/
def State.sieveStep (s : State) : State :=
  { s with sieves := s.sieves.map (fun y =>
      let z := y.dropBefore y.freshPass
      { z with pass := y.freshPass, cur := none, shape := 0, base := 0, tile := 0, fed := 0, shadow := none, acc := [], ready := []
               store := z.store.filter (fun p => p.layer == 0), nextLayer := some 0 }) }

end Sys2Proof.Machine
end

