-- ==== Sys2Proof/Machine/DiePort.lean ====
section
/-! DEFINITION. Machine/DiePort.lean: die-port messages (R22 to R30, R506): checks, staging, credits, and the hidden-state
tiles (R24, R74, R381, R507). -/

namespace Sys2Proof.Machine

/-! ### Header fields (R22) -/

def W8.msg (h : W8) : Nat := fld h.w0 31 28
def W8.dfmt (h : W8) : Nat := fld h.w0 27 24
def W8.dpoison (h : W8) : Bool := bit h.w0 22
def W8.dlast (h : W8) : Bool := bit h.w0 21
def W8.dblock (h : W8) : Bool := bit h.w0 20
def W8.dlen (h : W8) : Nat := fld h.w0 19 0
def W8.dlayer (h : W8) : Nat := fld h.w1 31 24
def W8.dhalf (h : W8) : Nat := fld h.w1 23 23
def W8.drows (h : W8) : Nat := fld h.w1 22 12
def W8.didx (h : W8) : Nat := fld h.w1 11 0
def W8.dseq (h : W8) : Nat := h.w4.toNat

/-- A die-port header, before its check word. -/
def dieHdr (msg fmt : Nat) (poison last block : Bool) (len layer half rows idx : Nat) (w2 w3 : Word) (seq : Nat)
    (w5 w6 : Word) : W8 :=
  { w0 := at_ 28 msg ||| at_ 24 fmt ||| at_ 22 (b2n poison) ||| at_ 21 (b2n last) ||| at_ 20 (b2n block) ||| at_ 0 len
    w1 := at_ 24 layer ||| at_ 23 half ||| at_ 12 rows ||| at_ 0 (idx % 4096)
    w2 := w2, w3 := w3, w4 := BitVec.ofNat 32 seq, w5 := w5, w6 := w6, w7 := 0 }

/-- The body that a header announces. -/
def W8.bodyOf (h : W8) (body : List Byte) : List Byte := slice body 0 (16 * W8.dlen h)

/-! ### Ports and credits (R26 to R28) -/

def State.port (s : State) (a : Nat) : DiePort := s.ports.getD a DiePort.reset

def State.updDie (s : State) (a : Nat) (f : DiePort → DiePort) : State := { s with ports := updAt s.ports a f }

/-- Credits a message of this body length needs (R26). -/
def creditsFor (bodyLen : Nat) : Nat := ceilDiv (32 + bodyLen) 4096

/-- Credits to return, by class of the engine's staging: 0 HS, 1 RES, 2 SWM. -/
def State.owe (s : State) (a cls n : Nat) : State := s.updDie a (fun p => p.owe cls n)

/-- The class whose CREDIT leaves next: the one that became ready first (R213). DESIGN CHOICE (assumption row 96): of classes whose
credits come to be owed at one time, in the order HS, RES, SWM. -/
def DiePort.creditNext (p : DiePort) : Option Nat := (p.turn ++ [0, 1, 2]).find? (fun c => decide (0 < p.owed.getD c 0))

/-- Credits held against the compute die, by class: 0 TILE, 1 COMB, 2 SWM. -/
def State.heldCredits (s : State) (a cls : Nat) : Nat := (s.port a).held.getD cls 0

def State.spend (s : State) (a cls n : Nat) : State :=
  s.updDie a (fun p => { p with held := updAt p.held cls (· - n) })

/-- A message leaves toward a compute die; bytes are counted (TEL_DIE_TX). -/
def State.sendDie (s : State) (a : Nat) (h : W8) (body : List Byte) : State :=
  let s1 := s.emit (.dieMsg a h.sealed body)
  { s1 with tel := { s1.tel with dieTx := s1.tel.dieTx + 32 + body.length } }

def srcDieHdr : Nat := 0x01

/-- A message of a body length has arrived: its bytes are counted (TEL_DIE_RX, R494). -/
def State.dieArrived (s : State) (bodyLen : Nat) : State := { s with tel := { s.tel with dieRx := s.tel.dieRx + 32 + bodyLen } }

/-- R25: the message is discarded, counted, and a control error; its credits go back in the class of its staging. -/
def State.dieBad (s : State) (a : Nat) (cls : Option Nat) (bodyLen : Nat) : State :=
  let s1 := ((s.dieArrived bodyLen).inc (R.rasDieportHdrCnt a) 1).err srcDieHdr a none
  match cls with
  | some c => s1.owe a c (creditsFor bodyLen)
  | none => s1

/-! ### Staging -/

def DiePort.staged (p : DiePort) (cls : Nat) : List Staged := if cls = 0 then p.hs else if cls = 1 then p.res else p.swm

def DiePort.setStaged (p : DiePort) (cls : Nat) (l : List Staged) : DiePort :=
  if cls = 0 then { p with hs := l } else if cls = 1 then { p with res := l } else { p with swm := l }

/-- The message at the head of a class leaves its staging; the credits not yet returned are owed (R27). -/
def State.unstage (s : State) (a cls : Nat) : State :=
  match (s.port a).staged cls with
  | [] => s
  | m :: r =>
    (s.updDie a (fun p => p.setStaged cls r)).owe a cls (creditsFor m.body.length - m.owed)

/-- The message at the head of a class fails its check. -/
def State.dropStaged (s : State) (a cls : Nat) : State := ((s.unstage a cls).inc (R.rasDieportHdrCnt a) 1).err srcDieHdr a none

/-- The message at the head of HS or RES staging (classes 0, 1) is read under parity (R462): the state in which a damaged one has
been discarded. -/
def State.stagedBad (s : State) (a cls : Nat) : Option State :=
  if ((s.port a).staged cls).isEmpty then none
  else match s.meet (.dieMsg a) with
    | (true, s1) => some ((s1.unstage a cls).parityErr (8 * a))
    | (false, _) => none

/-- A message lands in staging; in a sleep state it wakes the engine (R30, R444). -/
def State.stage (s : State) (a cls : Nat) (h : W8) (body : List Byte) (checked : Bool) : State :=
  let s1 := (s.dieArrived (16 * W8.dlen h)).updDie a (fun p =>
    p.setStaged cls (p.staged cls ++ [⟨h, W8.bodyOf h body, checked, 0, 0⟩]))
  if s1.awake then s1 else s1.startWake 2

/-! ### Hidden-state tiles (R24) -/

/-- The checks of an HS_TILE that its header alone decides. DESIGN CHOICE (assumption row 96): a layer that the loaded model
does not have, or any layer with no model loaded, fails. -/
def State.hsHdrOk (s : State) (h : W8) : Bool :=
  let l := W8.dlayer h
  let rows := W8.drows h
  h.ok && W8.msg h == 1 && isHsFmt (W8.dfmt h) && decide (l < s.modelLayers) &&
    ((s.step.inProg && W8.dseq h == s.stepSeq) || W8.dseq h == s.nextSeq) &&
    16 * W8.dlen h == pad16 (4 * rows) + rows * hsRowBytes (W8.dfmt h) (s.gateRec l).h

/-- Row table word i of a hidden-state tile: stream and position. -/
def rowStream (w : Word) : Nat := fld w 31 18
def rowPos (w : Word) : Nat := fld w 17 1

/-- Read the stream-table entries that the rows of a tile name (R381). -/
def State.checkRows (s : State) (a : Nat) (m : Staged) : State :=
  (List.range (W8.drows m.h)).foldl (fun s i =>
    let x := rowStream (wordAt m.body i)
    if s.step.tornRemoved.contains x then s else s.checkStream .dieRx a x) s

/-- R24, R381: the checks of a tile against its step, made when it is let out of staging. -/
def State.hsStepOk (s : State) (a : Nat) (m : Staged) : Bool :=
  let l := W8.dlayer m.h
  !s.layerDone l && !(s.portHalf l (W8.dhalf m.h) a).last &&
    (List.range (W8.drows m.h)).all (fun i =>
      let x := rowStream (wordAt m.body i)
      s.step.tornRemoved.contains x || s.present x)

/-- A row joins its half at the next arrival index, its payload already in the Hive. A passed-over row counts for each of
its causes (R507). -/
def State.addTok (s : State) (l h a : Nat) (m : Staged) (w : Word) (hd : Handle) : State :=
  let x := rowStream w
  let torn := s.step.tornRemoved.contains x
  let poisoned := W8.dpoison m.h
  let passed := if torn then 2 else if poisoned then 1 else 0
  let t : Tok := { stream := x, pos := rowPos w, passed := passed, hs := some hd, hsFmt := W8.dfmt m.h, scored := false,
                   whisked := false, disp := none, leaves := [], scores := [], recd := false, poison := passed != 0,
                   avail := [], sums := none, row := none, sent := false }
  let seen := SMap.get zeroAt (s.half l h).perStream x + 1
  let s1 := (s.updPort l h a (fun p => { p with toks := p.toks ++ [t] })).updHalf l h (fun r =>
    { r with perStream := SMap.set zeroAt r.perStream x seen })
  let s2 := if l = 0 then
      (s1.updCnt (fun c => { c with tokens := c.tokens + 1 })).updStep (fun u =>
        { u with tokOf := SMap.set zeroAt u.tokOf x (SMap.get zeroAt u.tokOf x + 1) })
    else s1
  let s2' := if torn then s2.inc R.rasTornRowCnt 1 else s2
  let s3 := if poisoned then (s2'.inc (R.ladlePoisonCnt a) 1).updCnt (fun c => { c with poisonRow := true }) else s2'
  if !torn && decide ((s.stream x).tok < seen) then
    (s3.inc R.stepOverboundCnt 1).updCnt (fun c => { c with overb := c.overb + 1 })
  else s3

/-- Rows of the tile at the head of staging go to the Hive one by one, until one must wait (R178, R183). DESIGN CHOICE (assumption
row 96): a stored row takes its payload and no header slot; R180 reserves one and R164 has a CLASS code for it, but R203 lists no use. -/
def State.writeRows (s : State) (a : Nat) : Nat → State × Bool
  | 0 => (s, true)
  | fuel + 1 =>
    match (s.port a).hs with
    | [] => (s, true)
    | m :: _ =>
      let rows := W8.drows m.h
      if rows ≤ m.rows then (s, true)
      else
        let l := W8.dlayer m.h
        let size := hsRowBytes (W8.dfmt m.h) (s.gateRec l).h
        let tbl := pad16 (4 * rows)
        match s.allocPay clHs size 2 true (.hsPort a) with
        | (none, s1) => (s1, false)
        | (some hd, s1) =>
          let s2 := (s1.postPay .dieRx a true hd 0 size).writePay hd 0 (slice m.body (tbl + m.rows * size) size)
          let s3 := s2.addTok l (W8.dhalf m.h) a m (wordAt m.body m.rows) hd
          let earned := (32 + tbl + (m.rows + 1) * size) / 4096
          let s4 := s3.updDie a (fun p => { p with hs := updAt p.hs 0 (fun x => { x with rows := x.rows + 1, owed := max x.owed earned }) })
          (s4.owe a 0 (earned - m.owed)).writeRows a fuel

/-- The end of a tile: LAST_OF_HALF is noted and the staging is freed. -/
def State.endTile (s : State) (a : Nat) : State :=
  match (s.port a).hs with
  | [] => s
  | m :: _ =>
    let s1 := if W8.dlast m.h then s.updPort (W8.dlayer m.h) (W8.dhalf m.h) a (fun p => { p with last := true }) else s
    s1.unstage a 0

/-- A tile of the step in progress in staging ends the gap of its layer (R446, R448). -/
def State.hsGap (s : State) (h : W8) : State :=
  if h.ok && W8.msg h == 1 && W8.dseq h == s.stepSeq && s.step.inProg then s.gapEnd (W8.dlayer h) else s

/-- A gap that starts while a tile of its layer waits in staging has ended with that arrival. -/
def State.stagedGaps (s : State) : State :=
  (List.range s.nRegions).foldl (fun s a => (s.port a).hs.foldl (fun s m => s.hsGap m.h) s) s

/-- Hidden-state tiles leave staging in order, as R14 and R17 let them; what arrives goes on through the Sieve (R80). -/
def State.pumpHs (s : State) (a : Nat) : Nat → State
  | 0 => s
  | fuel + 1 =>
    match s.stagedBad a 0, (s.port a).hs with
    | some s1, _ => s1.pumpHs a fuel
    | none, [] => s
    | none, m :: _ =>
      if !m.checked && !s.hsHdrOk m.h then (s.dropStaged a 0).pumpHs a fuel
      else if !s.inStep then s
      else if W8.dseq m.h ≠ s.stepSeq then (if W8.dseq m.h = s.nextSeq then s else (s.dropStaged a 0).pumpHs a fuel)
      else
        let l := W8.dlayer m.h
        let fresh := m.rows == 0
        let s0 := if fresh then s.checkRows a m else s
        if fresh && !s0.hsStepOk a m then (s0.dropStaged a 0).pumpHs a fuel
        else if !(s0.layerRec l).flying && decide (2 ≤ s0.step.flights.length) then s0
        else
          let s1 := if (s0.layerRec l).flying then s0
            else (s0.updLayer l (fun r => { r with flying := true })).updStep (fun t => { t with flights := t.flights ++ [l] })
          let (s2, all) := s1.writeRows a (W8.drows m.h + 1)
          if all then ((s2.endTile a).sieveGo a).pumpHs a fuel else s2.sieveGo a


/-- HS_TILE arrives on die port a: its arrival ends the gap of its layer, whether or not it must wait (R17, R446). DESIGN
CHOICE (assumption row 96): of a header whose CRC fails, its own length field says how much staging and how many credits are
freed. -/
def State.hsArrive (s : State) (a : Nat) (h : W8) (body : List Byte) : State :=
  if s.awake && !s.hsHdrOk h then s.dieBad a (some 0) (16 * W8.dlen h)
  else
    let s1 := (s.stage a 0 h body s.awake).hsGap h
    if s1.awake then s1.pumpHs a (((s1.port a).hs).length + 1) else s1

/-! ### CREDIT (R25, R28, R506) -/

/-- The index of a class that the compute die grants: TILE, COMB, SWM. -/
def grantedClass (code : Nat) : Option Nat := if code = 1 then some 0 else if code = 3 then some 1 else if code = 4 then some 2 else none

/-- A CREDIT arrives. DESIGN CHOICE (assumption row 96): one whose header gives a body length other than zero is a header
that fails its check, and its FMT bits are a field that its type does not use, so any value of them passes (R22, R128). -/
def State.creditIn (s : State) (a : Nat) (h : W8) : State :=
  let s1 := if s.awake then s else s.startWake 2
  match grantedClass (fld h.w2 31 28) with
  | some c =>
    if h.ok && W8.msg h == 9 && W8.dlen h == 0 then
      (s1.dieArrived 0).updDie a (fun p => { p with held := updAt p.held c (· + fld h.w2 15 0) })
    else s1.dieBad a none (16 * W8.dlen h)
  | none => s1.dieBad a none (16 * W8.dlen h)

/-- The code of a class of the engine's own staging. -/
def ownClassCode (cls : Nat) : Nat := if cls = 0 then 0 else if cls = 1 then 2 else 4

/-- Credits are withheld below S2, during a zeroisation pass, and from a partition reset until the job is loaded again or
ended (R29, R192, R468). -/
def State.creditsOpen (s : State) : Bool :=
  decide (2 ≤ s.get F.bootStageStage) && !s.flag F.rasStatusPartBusy && !s.flag F.hiveZeroBusy &&
    s.jobState != jsFaulted

/-- R27: the credits owed in a class go back in one CREDIT message. DESIGN CHOICE (assumption row 96): its W4 is
STEP_LAST_SEQ, also between steps and with no job. -/
def State.creditOut (s : State) (a cls : Nat) : State :=
  let n := min ((s.port a).owed.getD cls 0) 65535
  if s.creditsOpen && s.awake && decide (0 < n) && decide (cls < 3) then
    let s1 := s.sendDie a (dieHdr 9 0 false false false 0 0 0 0 0 (at_ 28 (ownClassCode cls) ||| at_ 0 n) 0
      s.stepSeq 0 0) []
    s1.updDie a (fun p => { p with owed := updAt p.owed cls (· - n)
                                   turn := if p.owed.getD cls 0 ≤ n then p.turn.filter (· != cls) else p.turn })
  else s

/-- The first credits, on entry to island mode (R27, R29): 1 MiB HS, 1 MiB RES, 512 KiB SWM. -/
def State.firstCredits (s : State) : State :=
  (List.range s.nRegions).foldl (fun s a => ((s.owe a 0 256).owe a 1 256).owe a 2 128) s

end Sys2Proof.Machine
end

