-- ==== Sys2Proof/Machine/Operands.lean ====
section
/-! DEFINITION. Machine/Operands.lean: the operand forms of the block's traffic: token headers (R196, R197), the stream hash
(R61), the mixing hash (R236), and which cluster and die a copy belongs to. -/

namespace Sys2Proof.Machine

/-! ### Token header fields (R196) -/

def W8.ttype (h : W8) : Nat := fld h.w0 31 28
def W8.tfmt (h : W8) : Nat := fld h.w0 27 24
def W8.tdup (h : W8) : Bool := bit h.w0 23
def W8.tpoison (h : W8) : Bool := bit h.w0 22
def W8.tlast (h : W8) : Bool := bit h.w0 21
def W8.tblock (h : W8) : Bool := bit h.w0 20
def W8.tlen (h : W8) : Nat := fld h.w0 19 0
def W8.tstream (h : W8) : Nat := fld h.w1 31 18
def W8.tpos (h : W8) : Nat := fld h.w1 17 1
def W8.thalf (h : W8) : Nat := fld h.w1 0 0
def W8.texpert (h : W8) : Nat := fld h.w2 31 21
def W8.trank (h : W8) : Nat := fld h.w2 20 18
def W8.tlayer (h : W8) : Nat := fld h.w2 17 10
def W8.tdest (h : W8) : Nat := fld h.w2 9 1
def W8.tseq (h : W8) : Nat := h.w4.toNat
def W8.tsrc (h : W8) : Nat := fld h.w5 31 23
def W8.tclu (h : W8) : Nat := fld h.w5 22 18
def W8.tepoch (h : W8) : Nat := fld h.w5 17 2
def W8.trot (h : W8) : Nat := fld h.w6 31 24
def W8.toff (h : W8) : Int := signed 8 (fld h.w6 23 16)
def W8.tgroup (h : W8) : Nat := fld h.w6 15 0

/-- Rebuild W0 with POISON and a payload length. -/
def W8.withPoison (h : W8) (len : Nat) : W8 :=
  ({ h with w0 := setFld (setFld h.w0 19 0 len) 22 22 1 } : W8).sealed

/-! ### Clusters and dies (R61, R62) -/

/-- The cluster of a token that arrives on die port a. -/
def clusterOf (a stream : Nat) : Nat := 8 * a + stream * 0x9E3779B1 % 2 ^ 32 / 2 ^ 29

/-- The compute die of a copy of expert e; a shared expert stays on the token's die. -/
def State.dieOf (s : State) (e a : Nat) : Nat := if 1024 ≤ e then a else e % s.nRegions

/-! ### The mixing hash (R236) -/

def mix (x : Word) : Word :=
  let x1 := x ^^^ (x >>> 15)
  let x2 := x1 * 0x2C1B3C6D#32
  let x3 := x2 ^^^ (x2 >>> 12)
  let x4 := x3 * 0x297A2D39#32
  x4 ^^^ (x4 >>> 15)

def mixh (stream pos e step : Nat) : Nat :=
  let a := mix (at_ 17 stream ||| at_ 0 pos)
  let b := mix (a ^^^ (BitVec.ofNat 32 e * 0x9E3779B1#32))
  (mix (b ^^^ BitVec.ofNat 32 step)).toNat

/-! ### Building headers (R197) -/

/-- O of a layer: its scale-table entry (R146). -/
def State.offsetOf (s : State) (l : Nat) : Int := signed 8 (s.get (F.whiskScaleOffset l))

/-- A dispatch header of a token's copy. -/
def State.dispHdr (s : State) (l h a : Nat) (t : Tok) (x : Leaf) (dup : Bool) (ordinal : Nat) (epoch : Nat)
    (poison : Bool) : W8 :=
  let r := s.whiskRec l
  let len := if poison then 0 else s.dispBytes l / 16
  let o := unsigned 8 (s.offsetOf l)
  ({ w0 := at_ 28 1 ||| at_ 24 r.dfmt ||| at_ 23 (b2n dup) ||| at_ 22 (b2n poison) ||| at_ 20 (b2n r.dblock) ||| at_ 0 len
     w1 := at_ 18 t.stream ||| at_ 1 t.pos ||| at_ 0 h
     w2 := at_ 21 x.expert ||| at_ 18 x.rank ||| at_ 10 l ||| at_ 1 x.dest
     w3 := BitVec.ofNat 32 x.g
     w4 := BitVec.ofNat 32 s.stepSeq
     w5 := at_ 23 s.self ||| at_ 18 (clusterOf a t.stream) ||| at_ 2 epoch
     w6 := at_ 24 r.rot ||| at_ 16 o ||| at_ 0 (ordinal % 65536)
     w7 := 0 } : W8).sealed

/-- The result header that answers a dispatch header (R197, R208), its reserved bits zero (R5). -/
def State.resHdr (s : State) (d : W8) (poison : Bool) : W8 :=
  let r := s.whiskRec (W8.tlayer d)
  let len := if poison then 0 else s.resBytes (W8.tlayer d) / 16
  ({ w0 := at_ 28 2 ||| at_ 24 r.cfmt ||| at_ 22 (b2n poison) ||| at_ 20 (b2n r.cblock) ||| at_ 0 len
     w1 := d.w1
     w2 := at_ 21 (W8.texpert d) ||| at_ 18 (W8.trank d) ||| at_ 10 (W8.tlayer d) ||| at_ 1 (W8.tsrc d)
     w3 := d.w3
     w4 := d.w4
     w5 := at_ 23 s.self ||| at_ 18 (W8.tclu d) ||| at_ 2 (W8.tepoch d)
     w6 := 0
     w7 := 0 } : W8).sealed

/-- A manifest header (R197). -/
def State.manHdr (s : State) (l h dest epoch len : Nat) : W8 :=
  ({ w0 := at_ 28 3 ||| at_ 21 1 ||| at_ 0 len
     w1 := at_ 0 h
     w2 := at_ 10 l ||| at_ 1 dest
     w3 := 0
     w4 := BitVec.ofNat 32 s.stepSeq
     w5 := at_ 23 s.self ||| at_ 2 epoch
     w6 := 0
     w7 := 0 } : W8).sealed

end Sys2Proof.Machine
end

