-- ==== Sys2Proof/Machine/Capacity.lean ====
section
/-! DEFINITION. Machine/Capacity.lean: the destination function (R235) and the capacity pass (R117 to R123, R179, R305). -/

namespace Sys2Proof.Machine

/-! ### Copies of a (layer, half) -/

/-- A routed copy: its expert, its token and the token's region, arrival index and rank. -/
structure Copy where
  e : Nat
  stream : Nat
  pos : Nat
  a : Nat
  i : Nat
  rank : Nat
  deriving DecidableEq, Repr

/-- The routed copies of the live tokens of one die port. -/
def portCopies (a : Nat) (p : PortHalf) : List Copy :=
  p.toks.zipIdx.flatMap (fun q =>
    if q.1.passed ≠ 0 then []
    else (q.1.leaves.filter (fun x => decide (x.expert < 1024))).map (fun x =>
      ⟨x.expert, q.1.stream, q.1.pos, a, q.2, x.rank⟩))

def HalfRec.copies (r : HalfRec) : List Copy := r.ports.zipIdx.flatMap (fun q => portCopies q.2 q.1)

/-- T_h (R117). -/
def HalfRec.tokens (r : HalfRec) : Nat := sumNat (r.ports.map (fun p => p.live.length))

/-- Ascending (stream, position); `flip` orders two slots that break R54 (assumption row 22). -/
def copyBefore (flip : Bool) (x y : Copy) : Bool :=
  decide (x.stream < y.stream) || (x.stream == y.stream && (decide (x.pos < y.pos) || (x.pos == y.pos && flip)))

/-! ### The destination function (R235) -/

/-- d0 of an expert's copies, in ascending (stream, position). -/
def destinations (self lqf step : Nat) (set : List Nat) (cs : List Copy) : List Nat :=
  let c := cs.length
  let q := if set.contains self then min c (ceilDiv (c * lqf) (16 * set.length)) else 0
  let x := if 0 < q ∧ 1 < set.length then set.filter (· != self) else set
  cs.mapIdx (fun n k =>
    if n < q then self else x.getD (mixh k.stream k.pos k.e step * x.length / 2 ^ 32) self)

/-! ### Capacity and placement (R118, R119) -/

/-- cap at every member that is not lost. -/
def capOf (r : SelRec) (th n : Nat) : Nat :=
  if r.capf = 0 then th else max r.capMin (ceilDiv (r.capf * r.k * th) (16 * r.n * n))

/-- next(S, d). -/
def nextMember (set : List Nat) (d : Nat) : Nat := (set.find? (fun m => decide (d < m))).getD (set.headD d)

/-- R119's inner loop: the member that takes a copy, trying `n` members from d. -/
def placeCopy (set : List Nat) (cap : Nat → Nat) (used : SMap Nat) : Nat → Nat → Option Nat
  | 0, _ => none
  | n + 1, d => if SMap.get zeroAt used d < cap d then some d else placeCopy set cap used n (nextMember set d)

/-- R119 over one expert's copies, in order: each copy's final destination, none where it is dropped. -/
def placeAll (set : List Nat) (cap : Nat → Nat) : SMap Nat → List Nat → List (Option Nat)
  | _, [] => []
  | used, d :: ds =>
    match placeCopy set cap used set.length d with
    | some m => some m :: placeAll set cap (SMap.set zeroAt used m (SMap.get zeroAt used m + 1)) ds
    | none => none :: placeAll set cap used ds

/-- Write a copy's destination into its leaf; d0 is what the destination function gave. -/
def State.placeLeaf (s : State) (l h : Nat) (c : Copy) (d0 : Nat) (dest : Option Nat) : State :=
  let s1 := s.updTok l h c.a c.i (fun t =>
    { t with leaves := t.leaves.map (fun x =>
        if x.expert = c.e ∧ x.rank = c.rank then
          { x with dest := dest.getD d0, st := if dest.isSome then x.st else .dropped } else x) })
  match dest with
  | none =>
    ((s1.inc (R.selDropCnt c.a) 1).updCnt (fun k => { k with drops := k.drops + 1 })).bumpStream .sieve c.a c.stream
      (fun x => { x with drops := x.drops + 1 })
  | some d =>
    let s2 := if d = s.self then s1 else s1.updCnt (fun k => { k with remote := k.remote + 1 })
    if d = d0 then s2 else (s2.inc (R.selSpillCnt c.a) 1).updCnt (fun k => { k with spills := k.spills + 1 })

/-- D(l, e) takes the copies of an expert, saturating (R238). -/
def State.addDemand (s : State) (l e n : Nat) : State :=
  let k := 1024 * l + e
  let v := min (SMap.get zeroAt s.roster.demand k + n) (2 ^ 32 - 1)
  { s with roster := { s.roster with demand := SMap.set zeroAt s.roster.demand k v } }

/-- The LQF of the roster in force. -/
def State.lqfNow (s : State) : Nat :=
  if s.member then fld (wordAt (s.rosterHdr (s.copyAt s.stepSeq)) 1) 7 0 else s.get F.rosterQuotaLqf

/-- The copies of one expert are assigned and placed. -/
def State.placeExpert (s : State) (l h th e : Nat) (cs : List Copy) : State :=
  let (set, s1) := s.serving s.stepSeq l e
  let (k, s2) := s1.tick
  let sorted := sortBy (copyBefore (Config.tieOrder k)) cs
  if set.isEmpty then s2
  else
    let r := s2.selRec l
    let cap := fun (d : Nat) => if s2.isLost d then 0 else capOf r th set.length
    let d0s := destinations s2.self s2.lqfNow s2.stepSeq set sorted
    let ds := placeAll set cap [] d0s
    let s3 := (sorted.zip (d0s.zip ds)).foldl (fun s p => s.placeLeaf l h p.1 p.2.1 p.2.2) s2
    s3.addDemand l e cs.length

/-! ### Renormalisation (R122) -/

/-- The gate weights of a token's remaining routed experts. -/
def renormTok (r : SelRec) (t : Tok) : Tok × Nat :=
  let kept := t.leaves.filter (fun x => decide (x.expert < 1024) && x.st != .dropped)
  if !r.renorm || !(t.leaves.any (fun x => x.st == .dropped)) then (t, 0)
  else
    let w := gateWeights r (kept.map (fun x => t.scores.getD x.rank nan32))
    ({ t with leaves := t.leaves.map (fun x =>
        match kept.findIdx? (fun y => y.leaf == x.leaf) with
        | some i => { x with g := w.1.getD i 0 }
        | none => x) }, w.2)

def State.renormPort (s : State) (l h a : Nat) : State :=
  let r := s.selRec l
  let out := (s.portHalf l h a).toks.map (fun t => if t.passed = 0 then renormTok r t else (t, 0))
  let n := sumNat (out.map (·.2))
  (((s.updPort l h a (fun p => { p with toks := out.map (·.1) })).inc (R.selNonfiniteCnt a) n).inc
    R.rasNonfiniteCnt n).updCnt (fun c => { c with nans := c.nans + n })

/-! ### Packets and local rows (R200, R201, R204) -/

/-- R201: first destination of cluster c, and the send order of a destination. -/
def State.sendOrder (s : State) (members : List Nat) (c d : Nat) : Nat :=
  let m := members.length
  let idx := fun (p : Nat) => (members.findIdx? (· == p)).getD 0
  let f := (idx s.self + 1 + c * m / s.nClusters) % m
  (idx d + m - f) % m

/-- The packets of one token: one per final destination other than the own package. -/
def packetsOf (self a i : Nat) (t : Tok) : List OutPkt :=
  let out := t.leaves.filter (fun x => x.dest != self && x.st != .dropped)
  let dests := out.foldl (fun acc x => insertAsc x.dest acc) []
  dests.map (fun d =>
    let xs := sortBy (fun (x y : Leaf) => decide (x.expert < y.expert)) (out.filter (fun x => x.dest == d))
    { dest := d, a := a, tok := i, stream := t.stream, pos := t.pos, leaves := xs.map (·.leaf), ordinal := 0,
      disp := t.disp })

/-- The leaf that a leaf index names. -/
def Tok.leafAt (t : Tok) (j : Nat) : Option Leaf := t.leaves.find? (fun x => x.leaf == j)

/-- The expert of a packet's first header. -/
def State.firstExpert (s : State) (l h : Nat) (p : OutPkt) : Nat :=
  match s.tok l h p.a p.tok with
  | some t => match p.leaves.head? with
    | some j => ((t.leafAt j).map (·.expert)).getD 0
    | none => 0
  | none => 0

/-- R201: the packets of cluster c in send order, with their ordinals. DESIGN CHOICE (assumption row 22): two slots that break R54
and so have one key keep their order of arrival. -/
def State.clusterPackets (s : State) (l h c : Nat) : List OutPkt :=
  let r := s.half l h
  let a := c / 8
  let ps := (r.port a).toks.zipIdx.flatMap (fun q =>
    if q.1.passed = 0 ∧ clusterOf a q.1.stream = c then packetsOf s.self a q.2 q.1 else [])
  let key := fun (p : OutPkt) => (s.sendOrder r.members c p.dest, s.firstExpert l h p, p.stream, p.pos)
  let keyed := ps.map (fun p => (key p, p))
  let lt := fun (x y : (Nat × Nat × Nat × Nat) × OutPkt) =>
    decide (x.1.1 < y.1.1 ∨ (x.1.1 = y.1.1 ∧ (x.1.2.1 < y.1.2.1 ∨ (x.1.2.1 = y.1.2.1 ∧
      (x.1.2.2.1 < y.1.2.2.1 ∨ (x.1.2.2.1 = y.1.2.2.1 ∧ x.1.2.2.2 < y.1.2.2.2))))))
  ((sortBy lt keyed).map (·.2)).mapIdx (fun n p => { p with ordinal := n })

/-- The cluster treats the stream's packets as stubs: a host flush or a teardown is in force (R216, R218). SCOPE 3 acts
as 2 (R230). -/
def State.flushed (s : State) (c x : Nat) : Bool :=
  let f := s.get (F.cluFlushScope c)
  (s.flag (F.cluFlushActive c) && (decide (2 ≤ f) || (f == 1 && s.get (F.cluFlushStream c) == x))) ||
    (s.clus.getD c Cluster.reset).teardown.contains x

/-- A slot of a combine record is closed as poisoned (R319). -/
def State.poisonSlot (s : State) (l h a i leaf : Nat) : State :=
  let s1 := ((s.updTok l h a i (fun t =>
    { t with poison := true, leaves := t.leaves.map (fun x => if x.leaf = leaf then { x with st := .poisoned } else x) })).inc
    (R.ladlePoisonCnt a) 1).updCnt (fun c => { c with poisoned := c.poisoned + 1 })
  match s.tok l h a i with
  | some t => s1.bumpStream .ladle a t.stream (fun x => { x with poisons := x.poisons + 1 })
  | none => s1

/-- A local copy joins the append queue of its cluster; one of a flushed or torn stream closes poisoned instead, and its
reference goes (R216, R218, R319). -/
def State.appendLocal (s : State) (l h a i : Nat) (x : Leaf) : State :=
  match s.tok l h a i with
  | none => s
  | some t =>
    let c := clusterOf a t.stream
    if s.flushed c t.stream then
      let s1 := s.poisonSlot l h a i x.leaf
      match t.disp with
      | some hd => s1.release hd c none
      | none => s1
    else
      let ap : Append := { layer := l, half := h, expert := x.expert, die := s.dieOf x.expert a,
                           hdr := s.dispHdr l h a t x false 0 (s.half l h).epoch false, slot := none,
                           h := t.disp.getD ⟨0, 0, 0⟩, poison := false, loc := true, link := 0 }
      { s with clus := updAt s.clus c (fun k => { k with appendQ := k.appendQ ++ [ap] }) }

/-- Local rows of a half, in ascending expert, stream and position. DESIGN CHOICE (assumption row 22): two slots that break R54 and
so have one key keep their order of arrival. -/
def State.localRows (s : State) (l h : Nat) : List (Copy × Leaf) :=
  let r := s.half l h
  let all := r.ports.zipIdx.flatMap (fun q => q.1.toks.zipIdx.flatMap (fun t =>
    if t.1.passed ≠ 0 then []
    else (t.1.leaves.filter (fun x => x.dest == s.self && x.st != .dropped)).map (fun x =>
      ((⟨x.expert, t.1.stream, t.1.pos, q.2, t.2, x.rank⟩ : Copy), x))))
  sortBy (fun x y => decide (x.1.e < y.1.e) || (x.1.e == y.1.e && copyBefore false x.1 y.1)) all

/-- R179: REF of a token's dispatch payload takes its packets and local copies, and the Whisk's reference goes. -/
def State.adjustRef (s : State) (l h a i : Nat) : State :=
  match s.tok l h a i with
  | none => s
  | some t =>
    match t.disp with
    | none => s
    | some hd =>
      let n := (packetsOf s.self a i t).length +
        (t.leaves.filter (fun x => x.dest == s.self && x.st != .dropped)).length
      let c := clusterOf a t.stream
      match s.addRef hd n c with
      | (true, s1) => s1.release hd c none
      | (false, s1) => s1

/-- Both references of a passed-over row's payload go (R507). -/
def State.freePassed (s : State) (l h a i : Nat) : State :=
  match s.tok l h a i with
  | none => s
  | some t =>
    if t.passed = 0 then s
    else match t.hs with
      | some hd => (s.release hd (8 * a) none).release hd (8 * a) none
      | none => s

/-- Apply an operation to every token of a (layer, half). -/
def State.eachTok (s : State) (l h : Nat) (f : State → Nat → Nat → State) : State :=
  (List.range 4).foldl (fun s a =>
    (List.range (s.portHalf l h a).toks.length).foldl (fun s i => f s a i) s) s

/-! ### The pass -/

/-- R117: T_h is known and every token has been selected. -/
def State.capReady (s : State) (l h : Nat) : Bool :=
  s.inStep && decide (l < s.modelLayers) && decide (h ≤ 1) && (s.half l h).cap == 0 && s.halfLast l h &&
    (s.half l h).ports.all (fun p => p.live.all (fun t => t.scored))

/-- The pass starts; the roster header is read (R234). -/
def State.capStart (s : State) (l h : Nat) : State :=
  if !s.capReady l h then s
  else
    let s1 := s.checkRosterHdr s.stepSeq
    (s1.updHalf l h (fun r => { r with cap := 1, th := r.tokens })).capShow l h true

/-- The pass ends once the Whisk has written every live token's payload (R179). -/
def State.capCanEnd (s : State) (l h : Nat) : Bool :=
  s.inStep && decide (l < s.modelLayers) && decide (h ≤ 1) && (s.half l h).cap == 1 &&
    (s.half l h).ports.all (fun p => p.live.all (fun t => t.whisked))

/-- The body of the pass: placement, records, packets, local rows and references. -/
def State.capEnd (s : State) (l h : Nat) : State :=
  let r := s.half l h
  let cs := r.copies
  let es := cs.foldl (fun acc c => insertAsc c.e acc) []
  let s1 := es.foldl (fun s e => s.placeExpert l h r.th e (cs.filter (fun c => c.e == e))) s
  let s2 := (List.range 4).foldl (fun s a => s.renormPort l h a) s1
  let s3 := s2.updHalf l h (fun r => { r with ports := r.ports.map (fun p => { p with toks := p.toks.map (fun t => { t with recd := true }) }) })
  let s4 := (s3.eachTok l h (fun s a i => s.adjustRef l h a i)).eachTok l h (fun s a i => s.freePassed l h a i)
  let s5 := (List.range s4.nClusters).foldl (fun s c =>
    let ps := s.clusterPackets l h c
    s.updHalf l h (fun r => { r with queues := updAt r.queues c (fun _ => ps) })) s4
  let s6 := (s5.localRows l h).foldl (fun s p => s.appendLocal l h p.1.a p.1.i p.2) s5
  (s6.updHalf l h (fun r => { r with cap := 2 })).capShow l h false

end Sys2Proof.Machine
end

