-- ==== Sys2Proof/Machine/Whisk.lean ====
section
/-! DEFINITION. Machine/Whisk.lean: dispatch payloads (R144 to R148), the scale table and its adaptation (R152 to R154). -/

namespace Sys2Proof.Machine

/-- The (layer, half) keys in flight, ascending. DESIGN CHOICE (assumption row 96): the Whisk serves waiting tokens of several
halves in this order; R145 orders those of one half. -/
def State.liveHalves (s : State) : List (Nat × Nat) :=
  let ls := sortBy (fun (x y : Nat) => decide (x < y)) s.inFlight
  ls.flatMap (fun l => [(l, 0), (l, 1)])

/-- The next token of region a that its Whisk takes. -/
def State.whiskNext (s : State) (a : Nat) : Option (Nat × Nat × Nat) :=
  s.liveHalves.findSome? (fun k =>
    ((s.portHalf k.1 k.2 a).toks.findIdx? (fun t => !t.whisked && t.passed == 0)).map (fun i => (k.1, k.2, i)))

def srcRecWhisk : Nat := 0x05

/-- R144: the Whisk of region a reads a layer's record: true where it can be used; a failing one is counted and is a control
error. -/
def State.whiskRecRead (s : State) (a l : Nat) : Bool × State :=
  let (s1, ue) := s.readMeta .whisk a (whiskBase + 32 * l) 32
  if ue || !recOk 8 (s1.whiskBytes l) then (false, (s1.inc (R.whiskRecErrCnt a) 1).err srcRecWhisk a none) else (true, s1)

/-- R144: the Whisk record and the rotation record it names, when they are read to quantise. -/
def State.whiskReadOk (s : State) (a l : Nat) : Bool × State :=
  let (ok, s1) := s.whiskRecRead a l
  let r := (s1.whiskRec l).rot
  if !ok || r == 0 then (ok, s1)
  else
    let (s2, ue) := s1.readMeta .whisk a (rotBase + 160 * r) 160
    if ue || !recOk 40 (s2.rotRec r) then (false, (s2.inc (R.whiskRecErrCnt a) 1).err srcRecWhisk a none) else (true, s2)

/-- The Whisk of region a quantises its next token and writes the payload (R145, R148); a read through a stale handle is
R167's error. -/
def State.whiskToken (s : State) (a : Nat) : State :=
  if !s.inStep then s
  else match s.whiskNext a with
    | none => s
    | some (l, h, i) =>
      match s.tok l h a i with
      | none => s
      | some t =>
        let (ok, s0) := s.whiskReadOk a l
        if !ok then s0
        else
          let hsSize := hsRowBytes t.hsFmt (s0.gateRec l).h
          let hd := t.hs.getD ⟨0, 0, 0⟩
          let (okHs, s0) := s0.useHandle hd hsSize .whisk a none
          let out := s0.quantise l (s0.offsetOf l) t.hsFmt (s0.payload hd hsSize)
          if !okHs then s0
          else match s0.allocPay clDisp out.1.length 1 true (.whisk a) with
          | (none, s1) => s1
          | (some dh, s1) =>
            let s2 := ((s1.postPay .whisk a false hd 0 hsSize).postPay .whisk a true dh 0
              out.1.length).writePay dh 0 out.1
            let s3 := s2.updTok l h a i (fun u => { u with whisked := true, disp := some dh })
            let s4 := ((((s3.inc (R.whiskTokCnt a) 1).inc (R.whiskSatCnt a) out.2.sat).inc (R.whiskUnfCnt a)
              out.2.unf).inc (R.whiskNanCnt a) out.2.nan)
            let s5 := s4.updLayer l (fun r => { r with sat := r.sat + out.2.sat, unf := r.unf + out.2.unf })
            (s5.updCnt (fun c => { c with sat := c.sat + out.2.sat })).release hd (8 * a) none

/-! ### The scale table (R152 to R154) -/

/-- An entry of the scale table. -/
def State.setScale (s : State) (l : Nat) (o : Int) (hold : Nat) : State :=
  (s.put (F.whiskScaleOffset l) (unsigned 8 o)).put (F.whiskScaleHold l) hold

/-- R152: the entry of a layer that is done. The table is the package's: the Whisk of region 0 reads the layer's record for it
(DESIGN CHOICE, assumption row 96), and one that fails changes nothing (R144). -/
def State.adaptScale (s : State) (l : Nat) : State :=
  if s.eff F.whiskCtlAdaptEn = 0 then s
  else
    let (ok, s) := s.whiskRecRead 0 l
    if !ok then s else
    let r := s.whiskRec l
    let lr := s.layerRec l
    let t := sumNat (lr.halves.map HalfRec.tokens)
    let n := t * (s.gateRec l).h
    let o := s.offsetOf l
    let hold := s.get (F.whiskScaleHold l)
    if r.oMin = r.oMax then s
    else if n * r.satThr / 2 ^ 20 < lr.sat then s.setScale l (min (o + 1) r.oMax) r.hold
    else if 0 < hold then s.setScale l o (hold - 1)
    else if lr.sat = 0 ∧ n * r.unfThr / 2 ^ 20 < lr.unf then s.setScale l (max (o - 1) r.oMin) hold
    else s

/-- R153: the scale table at a model load. -/
def State.initScales (s : State) (layers : Nat) : State :=
  let s1 := (List.range 256).foldl (fun s l => s.setWord (R.whiskScale l) 0) s
  let s2 := (List.range layers).foldl (fun s l => s.setScale l (s.whiskRec l).initO 0) s1
  s2.put F.whiskScaleSetPend 0

/-- R154: a host write that waits for the boundary; where the layer's record fails as region 0's Whisk reads it (R144), it is
discarded. -/
def State.applyScaleSet (s : State) : State :=
  if !s.flag F.whiskScaleSetPend then s
  else
    let l := s.get F.whiskScaleSetLayer
    let o := signed 8 (s.get F.whiskScaleSetOffset)
    let s1 := s.put F.whiskScaleSetPend 0
    if l < s.modelLayers then
      let (ok, s2) := s1.whiskRecRead 0 l
      let r := s2.whiskRec l
      if ok then s2.setScale l (min (max o r.oMin) r.oMax) 0 else s2
    else s1

end Sys2Proof.Machine
end

