-- ==== Sys2Proof/Machine/Cluster.lean ====
section
/-! DEFINITION. Machine/Cluster.lean: the dispatch clusters' send side (R200 to R204, R216 to R218) and their event rings
(R226). -/

namespace Sys2Proof.Machine

/-! ### Owner words of header slots (R203) -/

def State.setOwner (s : State) (slot : Nat) (d3 d4 d5 : Word) : State :=
  s.writeAt .alloc 0 (s.slotAddr slot + 44) (wordsBytes [d3, d4, d5])

/-- Write a header to each of the slots of one packet, with their common payload handle, linked in their order. -/
def State.fillSlots (s : State) (hs : List W8) (slots : List Nat) (pay : Option Handle) (cls : Nat) (own : Bool)
    (d3 d4 : Word) : State :=
  ((hs.zip slots).foldl (fun s p => (s.writeSlot p.2 p.1 pay cls own d3).setOwner p.2 d3 d4 0) s).linkSlots slots

/-! ### The order of sending (R202, R204) -/

/-- The (layer, half) pairs of the step that have a record, in the order of R16. -/
def State.halvesInOrder (s : State) : List (Nat × Nat) :=
  (sortBy (fun (x y : Nat) => decide (x < y)) (s.step.layers.map (·.layer))).flatMap (fun l => [(l, 0), (l, 1)])

/-- The (layer, half) that cluster c has still to finish sending. -/
def State.nextSend (s : State) (c : Nat) : Option (Nat × Nat) :=
  s.halvesInOrder.find? (fun k =>
    let r := s.half k.1 k.2
    r.cap != 2 || !(r.queues.getD c []).isEmpty || (r.mansReady && !(r.mans.getD c []).isEmpty))

/-- CLU_STATUS's send side: 1 waiting for the capacity pass, 2 sorted and not yet begun, 3 sending packets, 4 sending
manifests, 0 idle. -/
def State.cluPhase (s : State) (c : Nat) : State :=
  match s.nextSend c with
  | none => s.put (F.cluStatusTxPhase c) 0
  | some (l, h) =>
    let r := s.half l h
    let ph := if r.cap ≠ 2 then 1
      else if (r.queues.getD c []).isEmpty then 4
      else if r.handed.getD c 0 = 0 then 2 else 3
    ((s.put (F.cluStatusTxPhase c) ph).put (F.cluStatusTxLayer c) l).put (F.cluStatusTxHalf c) h

def State.cluPhases (s : State) : State := (List.range s.nClusters).foldl State.cluPhase s

/-- R204: once every cluster has handed over its last packet of the (layer, half), each cluster's manifests are ready:
cluster d mod C serves destination d, in ascending d. -/
def State.readyMans (s : State) (l h : Nat) : State :=
  let r := s.half l h
  if r.cap == 2 && !r.mansReady && r.queues.all (·.isEmpty) then
    let n := s.nClusters
    let self := s.self
    s.updHalf l h (fun x =>
      { x with mansReady := true
               mans := (List.range 32).map (fun c => x.members.filter (fun d => d != self && d % n == c)) })
  else s

/-! ### Handing over a packet (R202, R216) -/

/-- The header leaves of a packet: its token and the leaves it carries. -/
def State.packetLeaves (s : State) (l h : Nat) (p : OutPkt) : Option (Tok × List Leaf) :=
  (s.tok l h p.a p.tok).map (fun t => (t, p.leaves.filterMap (fun j => t.leafAt j)))

/-- The headers of a packet. -/
def State.packetHdrs (s : State) (l h : Nat) (p : OutPkt) (t : Tok) (xs : List Leaf) (epoch : Nat) (poison : Bool) :
    List W8 :=
  xs.map (fun x => s.dispHdr l h p.a t x (decide (2 ≤ xs.length)) p.ordinal epoch poison)

/-- The packet has left the cluster's queue; the half may be wholly sent. -/
def State.afterHandover (s : State) (c l h : Nat) : State :=
  let s1 := s.updHalf l h (fun r => { r with queues := updAt r.queues c (·.drop 1) })
  let r := s1.half l h
  let s2 := if (r.queues.getD c []).isEmpty then
      s1.cluEvent c ceHalfSent (at_ 8 h ||| at_ 0 l) (BitVec.ofNat 32 (r.handed.getD c 0))
    else s1
  (s2.readyMans l h).cluPhases

/-- Cluster c hands its next packet to the Forager that its route names (R202); a stub releases its payload at once. -/
def State.handover (s : State) (c : Nat) : State :=
  match s.nextSend c with
  | none => s
  | some (l, h) =>
    let r := s.half l h
    match r.queues.getD c [] with
    | [] => s
    | p :: _ =>
      if !s.inStep || r.cap != 2 then s
      else s.checked (.cluQ c) c (fun t => t.afterHandover c l h) fun s =>
        let s0 := s.checkStream .cluTx c p.stream
        if s.errs.length < s0.errs.length then s0
        else match s0.packetLeaves l h p with
          | none => s0.afterHandover c l h
          | some (t, xs) =>
            if s0.isLost p.dest then
              (match p.disp with
                | some hd => (s0.unwait true (.hand c)).release hd c none
                | none => s0.unwait true (.hand c)).afterHandover c l h
            else
              let stub := s0.flushed c p.stream
              let hs := s0.packetHdrs l h p t xs r.epoch stub
              let hb := hs.flatMap W8.bytes
              let dst := s0.cmidOf p.dest
              match s0.routeOf 2 dst none hb with
              | none => s0
              | some n =>
                if !s0.vcRoom n 2 then s0
                else match s0.allocSlots xs.length true (.hand c) with
                  | (none, s1) => s1
                  | (some slots, s1) =>
                    let s2 := (s1.unwait true (.hand c)).fillSlots hs slots (if stub then none else p.disp) clDisp true
                      (at_ 0 (p.ordinal % 65536)) (at_ 0 n)
                    let pay := if stub then none else p.disp.map (fun hd => (hd, s.dispBytes l))
                    let s3 := s2.enqueue n (TxPkt.own 2 dst xs.length hb pay slots)
                    let s4 := (s3.inc (R.cluHdrTxCnt c) xs.length).inc (R.cluPktTxCnt c) 1
                    let s5 := if stub then
                        (match p.disp with
                          | some hd => (s4.inc (R.cluStubCnt c) 1).release hd c none
                          | none => s4.inc (R.cluStubCnt c) 1).cluEvent c ceStub ((hs.headD (W8.ofBytes [])).w1) (at_ 0 p.dest)
                      else s4
                    let s6 := s5.updHalf l h (fun x =>
                      { x with handed := updAt x.handed c (· + 1), sentPkts := x.sentPkts ++ [p.dest]
                               sentHdrs := x.sentHdrs ++ xs.map (fun y => (p.dest, y.expert)) })
                    s6.afterHandover c l h

/-! ### Manifests (R204) -/

/-- The body of the manifest for a destination. -/
def HalfRec.manBody (r : HalfRec) (d : Nat) : List Byte :=
  let mine := (r.sentHdrs.filter (fun x => x.1 == d)).map (·.2)
  let es := mine.foldl (fun acc e => insertAsc e acc) []
  let entries : List Word := es.map (fun e => at_ 21 e ||| at_ 0 (mine.filter (· == e)).length)
  let tail := entries ++ List.replicate ((4 - entries.length % 4) % 4) 0
  let m : List Word := [BitVec.ofNat 32 mine.length, BitVec.ofNat 32 (r.sentPkts.filter (· == d)).length, at_ 0 es.length]
  wordsBytes (m ++ [crc32c (wordsBytes (m ++ tail))] ++ tail)

/-- The manifest for one destination, if its Forager can take it: whether it is done. -/
def State.sendMan (s : State) (l h c d : Nat) : Bool × State :=
  if s.isLost d then (true, s)
  else
    let r := s.half l h
    let body := r.manBody d
    let hdr := s.manHdr l h d r.epoch (body.length / 16)
    let dst := s.cmidOf d
    match s.routeOf 2 dst none hdr.bytes with
    | none => (false, s)
    | some n =>
      if s.vcRoom n 2 then
        (true, (s.enqueue n (TxPkt.own 2 dst 1 (hdr.bytes ++ body) none [])).inc (R.cluManTxCnt c) 1)
      else (false, s)

/-- A cluster's manifests in ascending destination, as far as its Foragers take them. -/
def State.sendMans (s : State) (l h c : Nat) : List Nat → State
  | [] => s
  | d :: ds =>
    let (bad, s0) := s.meet (.cluQ c)
    match if bad then (true, s0.parityErr c) else s0.sendMan l h c d with
    | (false, s1) => s1
    | (true, s1) => (s1.updHalf l h (fun x => { x with mans := updAt x.mans c (·.drop 1) })).sendMans l h c ds

/-- CLU_MANIFEST_SEND: every cluster whose next (layer, half) this is sends its ready manifests. -/
def State.manifestSend (s : State) (l h : Nat) : State :=
  if !s.inStep then s
  else
    ((List.range s.nClusters).foldl (fun s c =>
      if s.nextSend c = some (l, h) ∧ (s.half l h).mansReady then s.sendMans l h c ((s.half l h).mans.getD c []) else s) s).cluPhases

/-! ### The capacity pass's side of the clusters -/

/-- The pass starts: every cluster waits for it. -/
def State.capStartClu (s : State) (l h : Nat) : State := (s.capStart l h).cluPhases

end Sys2Proof.Machine
end

