-- ==== Sys2Proof/Machine/Receive.lean ====
section
/-! DEFINITION. Machine/Receive.lean: the dispatch clusters' receive side: the header checks (R199), the step check (R211),
taking packets into the Hive (R212), manifests (R204 to R206) and the completion of a half (R205, R210). -/

namespace Sys2Proof.Machine

def srcManifest : Nat := 0x0A
def srcRxStep : Nat := 0x0B

/-! ### Finding the packet a row works on -/

/-- The oldest packet of a VC that no cluster has taken yet, once it can be judged. -/
def State.rxHead (s : State) (n v : Nat) : Option (Nat × RxPkt) :=
  match (s.rxq n v).zipIdx.find? (fun p => p.1.relay.isNone && p.1.taken.isNone && !p.1.mg) with
  | some (p, i) => if p.judged then some (i, p) else none
  | none => none

/-- The oldest packet of a VC is read under parity (R462). -/
def State.packetRead (s : State) (n v : Nat) (act : State → State) : State :=
  match s.rxHead n v with
  | some (i, _) => s.checked (.packet n) (n / 2) (fun t => t.rxDiscard n v i) act
  | none => act s

def RxPkt.hdrs (p : RxPkt) : List W8 := (List.range p.nhdr).map p.hdr

/-- The payload bytes that have arrived. -/
def RxPkt.body (p : RxPkt) : List Byte := (p.bytes.drop (32 * p.nhdr)).take (16 * W8.tlen (p.hdr 0))

/-! ### The checks (R199, R211, R243) -/

/-- The expert and rank of a header lie within the layer's record (R55). -/
def State.copyOk (s : State) (h : W8) : Bool :=
  let r := s.selRec (W8.tlayer h)
  let e := W8.texpert h
  if e < 1024 then decide (e < r.n) && decide (W8.trank h < r.k)
  else decide (e - 1024 < r.shared) && W8.trank h == e - 1024

/-- R199 for one header on a VC: the identifiers of a manifest's header are held to their ranges too. -/
def State.tokHdrOk (s : State) (v : Nat) (h : W8) : Bool :=
  let w := s.whiskRec (W8.tlayer h)
  let t := W8.ttype h
  h.ok && decide (W8.tlayer h < s.modelLayers) && W8.tdest h == s.self &&
    (s.membersAt (W8.tseq h)).contains (W8.tsrc h) && W8.tepoch h == s.epochAt (W8.tseq h) &&
    s.copyOk h &&
    (if v = 2 then (t == 1 && W8.tfmt h == w.dfmt) || (t == 3 && W8.tfmt h == 0)
     else t == 2 && W8.tfmt h == w.cfmt && decide (W8.tclu h < s.nClusters))

/-- NHDR fits its packet (R265, R197): at most 8 headers, one to a manifest or a result, two or more exactly where DUPGRP says
so, and with the payload no less than the packet holds; exactly that of a whole packet that was not abandoned. -/
def RxPkt.nhdrFits (p : RxPkt) : Bool :=
  decide (p.nhdr ≤ 8) && (W8.ttype (p.hdr 0) == 1 || p.nhdr == 1) && (W8.tdup (p.hdr 0) == decide (2 ≤ p.nhdr)) && p.lenFits

/-- A header of a packet passes: R199, and one kind of header to a packet. -/
def State.hdrPasses (s : State) (v : Nat) (p : RxPkt) (h : W8) : Bool :=
  s.tokHdrOk v h && W8.ttype h == W8.ttype (p.hdr 0)

/-- R199 for every header of a packet, and R265 for their number. -/
def State.pktOk (s : State) (v : Nat) (p : RxPkt) : Bool :=
  p.hdrsIn && p.hdrs.all (fun h => s.hdrPasses v p h) && p.nhdrFits

/-- The header that fails, as RX_BAD logs it (R226): the first one, where only their number fails. -/
def State.failingHdr (s : State) (v : Nat) (p : RxPkt) : W8 :=
  (p.hdrs.find? (fun h => !s.hdrPasses v p h)).getD (p.hdr 0)

/-- A packet that fails on VC2 or VC3: roster control by R239, every other by R199. -/
def State.pktBad (s : State) (n v i : Nat) (p : RxPkt) : State :=
  if p.type = 5 then s.rosterRxBad n v i else s.rxBad n v i (s.failingHdr v p)

/-- R211's failure. -/
def State.rxStepBad (s : State) (n v i : Nat) (h : W8) : State :=
  ((s.rxDiscard n v i).cluEvent (n / 2) ceRxStep h.w4 (evSrcLink h n)).err srcRxStep n none

/-! ### Counting headers and completing a half (R205, R206) -/

def HalfRec.rxOf (r : HalfRec) (m : Nat) : RxMember := (r.rx.find? (fun x => x.pkg == m)).getD ⟨m, 0, none, []⟩

def HalfRec.setRxOf (r : HalfRec) (x : RxMember) : HalfRec :=
  { r with rx := if r.rx.any (fun y => y.pkg == x.pkg) then r.rx.map (fun y => if y.pkg = x.pkg then x else y) else r.rx ++ [x] }

/-- A member has sent all it announced, or is lost (R252). -/
def State.memberIn (s : State) (r : HalfRec) (m : Nat) : Bool :=
  s.isLost m || (match (r.rxOf m).man with
    | some (k, _) => k == (r.rxOf m).count
    | none => false)

/-- The receive side of a (layer, half) completes (R205); cluster 0 logs it. -/
def State.rxCheck (s : State) (l h : Nat) : State :=
  let r := s.half l h
  if r.cap == 2 && !r.rxDone && r.members.all (fun m => m == s.self || s.memberIn r m) then
    (s.updHalf l h (fun x => { x with rxDone := true })).cluEvent 0 ceHalfDone (at_ 8 h ||| at_ 0 l)
      (BitVec.ofNat 32 (sumNat (r.rx.map (·.count))))
  else s

/-- A manifest error of R206. -/
def State.manBad (s : State) (n l h src count : Nat) : State :=
  (s.cluEvent (n / 2) ceManOver (at_ 17 h ||| at_ 9 l ||| at_ 0 src) (BitVec.ofNat 32 count)).err srcManifest n none

/-- The headers of a dispatch packet of the current step enter their member's count. -/
def State.countHdrs (s : State) (n : Nat) (hs : List W8) : State :=
  let h0 := hs.headD (W8.ofBytes [])
  let l := W8.tlayer h0
  let h := W8.thalf h0
  let x := (s.half l h).rxOf (W8.tsrc h0)
  let y := { x with count := x.count + hs.length
                    by_ := hs.foldl (fun m w => SMap.set zeroAt m (W8.texpert w) (SMap.get zeroAt m (W8.texpert w) + 1)) x.by_ }
  let s1 := s.updHalf l h (fun r => r.setRxOf y)
  let s2 := match y.man with
    | some (k, _) => if k < y.count then s1.manBad n l h (W8.tsrc h0) y.count else s1
    | none => s1
  s2.rxCheck l h

/-! ### Poisoned dispatch headers (R210) -/

/-- The answer to a poisoned dispatch header, from its slot: a poisoned result on VC3, or nothing toward a lost package
(R252). -/
def State.answerPoison (s : State) (slot : Nat) : State :=
  let (ok, s) := s.slotRead .alloc 0 slot
  let d := s.slotHdr slot
  let r := s.resHdr d true
  let dest := W8.tsrc d
  if !ok || s.owedNothing dest then s.freeSlot slot
  else
    let s1 := (s.writeSlot slot r none clRes false 0).setOwner slot 0 0 0
    s1.sendPkt (TxPkt.own 3 (s.cmidOf dest) 1 r.bytes none [slot])

/-! ### Taking a packet (R211, R212) -/

/-- The step a packet belongs to: 0 the current one, 1 the next, none another (R211). -/
def State.stepOf (s : State) (h : W8) : Option Nat :=
  if W8.tseq h = s.curSeq then some 0 else if W8.tseq h = seqAdd s.curSeq 1 then some 1 else none

/-- CLU_STATUS.HOLDING follows the packets held. -/
def State.setHolding (s : State) (c k : Nat) : State :=
  (s.updClu c (fun x => { x with holding := k })).put (F.cluStatusHolding c) (b2n (decide (0 < k)))

/-- A packet of the next step is held (R211). -/
def State.holdPkt (s : State) (n : Nat) : State :=
  let c := n / 2
  (s.setHolding c ((s.cluster c).holding + 1)).inc (R.cluHoldCnt c) 1

/-- Mark packet i taken, with its payload and slots, and free its places; bytes already here go to the Hive. -/
def State.rxTake (s : State) (n v i : Nat) (p : RxPkt) (pay : Option Handle) (slots : List Nat) (counted : Bool) : State :=
  let s1 := match pay with
    | some hd => (s.postPay .cluRx (n / 2) true hd 0 p.body.length).writePay hd 0 p.body
    | none => s
  (s1.setRx n v i { p with taken := some (pay, slots), places := 0, counted := counted }).freePlaces n v p.places

/-- The packet's headers are acted on in their own step: poisoned ones are answered at once. -/
def State.rxEnter (s : State) (n i : Nat) : State :=
  match (s.rxq n 2)[i]? with
  | none => s
  | some p =>
    match p.taken with
    | none => s
    | some (pay, slots) =>
      let s1 := s.setRx n 2 i { p with counted := true }
      let s2 := s1.countHdrs n p.hdrs
      if pay.isNone then
        (slots.foldl State.answerPoison s2).rxDiscard n 2 i
      else s2

/-- DISPATCH_PACKET_RX: cluster n / 2 takes the oldest dispatch packet of link n. Its headers count once they have passed R199, also
where R211 then refuses their step (R230). -/
def State.dispatchRx (s : State) (n : Nat) : State :=
  match s.rxHead n 2 with
  | none => s
  | some (i, p) =>
    let h0 := p.hdr 0
    if !s.member || (p.hdrsIn && W8.ttype h0 == 3) then s
    else if p.pab && !p.hdrsIn then (s.unwait false (.rx n 2)).rxRemove n 2 i
    else if !s.pktOk 2 p then s.pktBad n 2 i p
    else match s.stepOf h0 with
      | none => ((s.unwait false (.rx n 2)).inc (R.cluHdrRxCnt (n / 2)) p.nhdr).rxStepBad n 2 i h0
      | some k =>
        match s.allocSlots p.nhdr false (.rx n 2) with
        | (none, s1) => s1
        | (some slots, s1) =>
          let poison := W8.tpoison h0
          let (pay, s2) := if poison then (none, s1)
            else s1.allocPay clDisp (16 * W8.tlen h0) p.nhdr false (.rx n 2)
          if !poison && pay.isNone then s2.returnSlots false slots
          else
            let s3 := (s2.unwait false (.rx n 2)).fillSlots p.hdrs slots pay clDisp false 0 0
            let s4 := (s3.rxTake n 2 i p pay slots false).inc (R.cluHdrRxCnt (n / 2)) p.nhdr
            if k = 0 then s4.rxEnter n i else s4.holdPkt n

/-! ### Manifests (R204 to R206) -/

/-- The entries of a manifest body. -/
def manEntries (b : List Byte) : List (Nat × Nat) :=
  (List.range (fld (wordAt b 2) 15 0)).map (fun i => (fld (wordAt b (4 + i)) 31 21, fld (wordAt b (4 + i)) 17 0))

/-- M3 covers M0 to M2 and every word after M3. -/
def manCrcOk (b : List Byte) : Bool := crc32c (b.take 12 ++ b.drop 16) == wordAt b 3

/-- A manifest of the current step is checked and kept. An entry with a reserved expert id fails the manifest's check (R53). -/
def State.manIn (s : State) (n : Nat) (h0 : W8) (body : List Byte) : State :=
  let b := padTo 16 body
  let l := W8.tlayer h0
  let h := W8.thalf h0
  let src := W8.tsrc h0
  let x := (s.half l h).rxOf src
  let k := (wordAt b 0).toNat
  let es := manEntries b
  if !manCrcOk b || es.any (fun e => decide (1032 ≤ e.1)) || x.man.isSome || sumNat (es.map (·.2)) != k || decide (k < x.count) then
    s.manBad n l h src x.count
  else
    ((s.updHalf l h (fun r => r.setRxOf { x with man := some (k, es) })).inc (R.cluManRxCnt (n / 2)) 1).rxCheck l h

/-- MANIFEST_RX: cluster n / 2 takes the oldest manifest of link n, once it is whole. One that its link abandons after its header
is in gives no manifest: it goes without an error or a count beyond LINK_ABANDON_CNT, since R215 speaks of rows and results only
(DESIGN CHOICE, assumption row 96). One of the current step is read out of its places, which are then free, and takes neither slot nor
payload; one that is held for the next step takes both (R212; DESIGN CHOICE, assumption row 96). -/
def State.manifestRx (s : State) (n : Nat) : State :=
  match s.rxHead n 2 with
  | none => s
  | some (i, p) =>
    let h0 := p.hdr 0
    if !s.member || !(p.hdrsIn && W8.ttype h0 == 3) || !p.whole then s
    else if p.pab then (s.unwait false (.rx n 2)).rxRemove n 2 i
    else if !s.pktOk 2 p then s.pktBad n 2 i p
    else match s.stepOf h0 with
      | none => (s.unwait false (.rx n 2)).rxStepBad n 2 i h0
      | some k =>
        if k = 0 then (s.rxRemove n 2 i).manIn n h0 p.body
        else match s.allocSlots 1 false (.rx n 2) with
          | (none, s1) => s1
          | (some slots, s1) =>
            match s1.allocPay clDisp p.body.length 1 false (.rx n 2) with
            | (none, s2) => s2.returnSlots false slots
            | (some hd, s2) =>
              ((((s2.unwait false (.rx n 2)).fillSlots p.hdrs slots (some hd) clDisp false 0 0).rxTake n 2 i p (some hd) slots
                false).holdPkt n)

/-- A held packet of the step just accepted enters it; a held manifest gives its Hive space up. -/
def State.enterHeld (s : State) (n i : Nat) : State :=
  match (s.rxq n 2)[i]? with
  | none => s
  | some p =>
    match p.taken with
    | some (pay, slots) =>
      if p.counted || W8.tseq (p.hdr 0) ≠ s.curSeq then s
      else (s.setHolding (n / 2) ((s.cluster (n / 2)).holding - 1)).checked (.packet n) (n / 2) (fun t => t.rxDiscard n 2 i) fun s1 =>
        if W8.ttype (p.hdr 0) = 3 then
          let s2 := match pay with
            | some hd => s1.release hd (n / 2) slots.head?
            | none => s1
          ((s2.freeSlots slots).setRx n 2 i { p with taken := some (none, []), counted := true, released := true }).manIn n (p.hdr 0) p.body
        else s1.rxEnter n i
    | none => s

/-- R211: at acceptance, what was held for the step enters it. -/
def State.enterAllHeld (s : State) : State :=
  (List.range s.nLinks).foldl (fun s n =>
    let k := (s.rxq n 2).length
    let s1 := (List.range k).reverse.foldl (fun s i => s.enterHeld n i) s
    s1.setRxq n 2 ((s1.rxq n 2).filter (fun p => !(p.taken == some (none, []) && p.whole && p.counted)))) s

end Sys2Proof.Machine
end

