-- ==== Sys2Proof/Machine/Tiles.lean ====
section
/-! DEFINITION. Machine/Tiles.lean: expert tiles (R220 to R225): appending rows, closing tiles, the messages EXP_TILE and
TILE_MANIFEST, and the release of received copies to their consumers (R214, R215). -/

namespace Sys2Proof.Machine

/-! ### Keys and records -/

/-- The key of a tile's counts. -/
def tileKey (e die : Nat) : Nat := 4 * e + die

def Tile.tag (t : Tile) : Nat := 65536 * t.gen + t.idx

def State.updTiles (s : State) (f : List Tile → List Tile) : State :=
  { s with tiles := { s.tiles with live := f s.tiles.live } }

/-- MAXROWS (R219). -/
def State.maxRows (s : State) : Nat := ((s.step.buckets.getLast?).map (·.1)).getD 0

/-- The VARIANT of the first bucket whose ROWS is at least r. -/
def State.variantFor (s : State) (r : Nat) : Nat := ((s.step.buckets.find? (fun b => decide (r ≤ b.1))).map (·.2)).getD 0

def State.rowMult (s : State) : Nat := max 1 (s.get (F.cluTileRowmult 0))

/-- The first free record from k on: among one more than the records in use there is a free one. -/
def freeRecord (used : List Nat) : Nat → Nat → Nat
  | 0, k => k % 65536
  | fuel + 1, k => if used.contains (k % 65536) then freeRecord used fuel (k + 1) else k % 65536

/-- The open tile of a key. -/
def State.openTile (s : State) (l h e die : Nat) : Option Tile :=
  s.tiles.live.find? (fun t => !t.closed && t.layer == l && t.half == h && t.expert == e && t.die == die)

/-! ### The manifest area (R161, R220) -/

/-- The manifest area: 65,536 tile records in 32 MiB; DESIGN CHOICE (assumption row 100): 512 B each, in the order of their
indices. What stands in a record is internal: the model holds it as `State.tiles`. -/
def manifestBase : Nat := 0x9000000

def tileRecBytes : Nat := 512

def tileRecAddr (idx : Nat) : Nat := manifestBase + tileRecBytes * idx

/-- An address in a tile record that is in use. -/
def State.inTileRec (s : State) (a : Nat) : Bool :=
  decide (manifestBase ≤ a ∧ a < manifestBase + 65536 * tileRecBytes) &&
    s.tiles.live.any (fun t => t.idx == (a - manifestBase) / tileRecBytes)

/-- A tile record is read under SECDED: an uncorrectable word is a control error (R160, R464). -/
def State.tileRecRead (s : State) (g : HiveGroup) (m idx : Nat) : Bool × State :=
  let (s1, ue) := s.readMeta g m (tileRecAddr idx) tileRecBytes
  (!ue, if ue then s1.err srcHiveUe 0 none else s1)

/-! ### Closing (R220, R221) -/

/-- A tile closes and becomes ready to leave on its die port. -/
def State.closeTile (s : State) (idx r variant clu die : Nat) : State :=
  let s1 := s.updTiles (fun ts => ts.map (fun t =>
    if t.idx = idx then { t with closed := true, r := r, variant := variant } else t))
  (s1.updDie die (fun p => { p with tiles := p.tiles ++ [idx] })).inc (R.cluTileTxCnt clu) 1

/-- The TILE_MANIFEST of a die is ready once the tails have closed and every tile has been sent (R224). -/
def State.manifestDue (s : State) (l h die : Nat) : State :=
  let r := s.half l h
  if r.tailsDone && !r.manSent.getD die false &&
      !(s.tiles.live.any (fun t => t.layer == l && t.half == h && t.die == die && !t.sent)) then
    (s.updHalf l h (fun x => { x with manSent := updAt x.manSent die (fun _ => true) })).updDie die
      (fun p => { p with mans := p.mans ++ [(l, h)] })
  else s

/-- A tail closes: R, the variant, and its closing cluster (the note to R230). -/
def State.closeTail (s : State) (l h : Nat) (t : Tile) : State :=
  let m := s.rowMult
  let r := ceilDiv t.rows.length m * m
  let v := s.variantFor r
  let clu := if 1024 ≤ t.expert then 8 * t.die else t.expert % s.nClusters
  (s.closeTile t.idx r v clu t.die).updHalf l h (fun x =>
    { x with tails := SMap.set zeroAt x.tails (tileKey t.expert t.die) (v * 2048 + r) })

/-- No row of the (layer, half) is still on its way to the tile table. -/
def State.rowsIn (s : State) (l h : Nat) : Bool :=
  s.clus.all (fun c => c.appendQ.all (fun a => !(a.layer == l && a.half == h))) &&
    s.links.all (fun k => (k.rx.q.getD 2 []).all (fun p =>
      p.released || p.taken.isNone || !p.counted || W8.ttype (p.hdr 0) == 3 ||
        !(W8.tlayer (p.hdr 0) == l && W8.thalf (p.hdr 0) == h)))

/-- R221: the open tiles of a (layer, half) whose receive side is complete close together, in ascending expert id. -/
def State.closeTails (s : State) (l h : Nat) : State :=
  let r := s.half l h
  if r.rxDone && !r.tailsDone && s.rowsIn l h then
    let ts := s.tiles.live.filter (fun t => !t.closed && t.layer == l && t.half == h)
    let sorted := sortBy (fun (x y : Tile) => decide (x.expert < y.expert ∨ (x.expert = y.expert ∧ x.die < y.die))) ts
    let s1 := sorted.foldl (fun s t => s.closeTail l h t) s
    let s2 := s1.updHalf l h (fun x => { x with tailsDone := true })
    (List.range s2.nRegions).foldl (fun s d => s.manifestDue l h d) s2
  else s

/-- The tails of every (layer, half) of the step whose receive side is complete. -/
def State.closeDone (s : State) : State := s.halvesInOrder.foldl (fun t k => t.closeTails k.1 k.2) s

/-! ### Appending a row (R216, R220, R222) -/

/-- The token and leaf that a header of an own token names: its arrival index and leaf index. DESIGN CHOICE (assumption row
22): of two slots that break R54, the first in order of arrival whose leaf is open takes it. -/
def State.findLeaf (s : State) (l h a : Nat) (hd : W8) : Option (Nat × Nat) :=
  let k := (s.selRec l).k
  let leaf := if W8.texpert hd < 1024 then W8.trank hd else k + W8.trank hd
  let named := fun (t : Tok) => t.passed == 0 && t.stream == W8.tstream hd && t.pos == W8.tpos hd &&
    t.leaves.any (fun x => x.leaf == leaf)
  let toks := (s.portHalf l h a).toks
  match toks.findIdx? (fun t => named t && t.leaves.any (fun x => x.leaf == leaf && x.st == .open_)) with
  | some i => some (i, leaf)
  | none => (toks.findIdx? named).map (fun i => (i, leaf))

def State.popAppend (s : State) (c : Nat) : State := s.updClu c (fun k => { k with appendQ := k.appendQ.drop 1 })

/-- The next tile append of cluster c is read under parity (R462). -/
def State.appendRead (s : State) (c : Nat) (act : State → State) : State :=
  if (s.cluster c).appendQ.isEmpty then act s else s.checked (.append c) c (fun t => t.popAppend c) act

/-- The row joins the tile: its slot's owner words name it (R203), the slot of the row before links to it (R164), and a tile
of MAXROWS closes. -/
def State.addRow (s : State) (c : Nat) (ap : Append) (t : Tile) (slot : Nat) : State :=
  let s0 := s.linkSlots (((t.rows.getLast?).map (·.slot)).toList ++ [slot])
  let s1 := s0.setOwner slot (at_ 0 t.tag) (at_ 0 t.rows.length) (at_ 6 (b2n ap.loc) ||| at_ 0 ap.link)
  let s2 := s1.updTiles (fun ts => ts.map (fun x =>
    if x.idx = t.idx then { x with rows := x.rows ++ [⟨slot, ap.poison, false⟩] } else x))
  let s3 := if ap.loc then s2.updHalf ap.layer ap.half (fun r =>
      let k := tileKey ap.expert ap.die
      { r with locRows := SMap.set zeroAt r.locRows k (SMap.get zeroAt r.locRows k + 1) }) else s2
  let s4 := s3.popAppend c
  if s4.maxRows ≤ t.rows.length + 1 then
    s4.closeTile t.idx s4.maxRows (((s4.step.buckets.getLast?).map (·.2)).getD 0) c ap.die
  else s4

/-- Open a tile for a key in a free record; none when every record is in use (R220, R56). -/
def State.newTile (s : State) (ap : Append) : Option Tile × State :=
  if 65536 ≤ s.tiles.live.length then (none, s)
  else
    let (k, s1) := s.tick
    let idx := freeRecord (s.tiles.live.map (·.idx)) (s.tiles.live.length + 1) (Config.tileChoice k)
    let r := s1.half ap.layer ap.half
    let key := tileKey ap.expert ap.die
    let n := SMap.get zeroAt r.tilesOf key
    let t : Tile := { idx := idx, gen := SMap.get zeroAt s.tiles.gens idx, layer := ap.layer, half := ap.half,
                      expert := ap.expert, die := ap.die, rows := [], closed := false, r := 0, variant := 0,
                      ordinal := n, sent := false }
    (some t, (s1.updTiles (· ++ [t])).updHalf ap.layer ap.half (fun x => { x with tilesOf := SMap.set zeroAt x.tilesOf key (n + 1) }))

/-- TILE_APPEND: cluster c appends its next copy. -/
def State.tileAppend (s : State) (c : Nat) : State :=
  match (s.cluster c).appendQ with
  | [] => s
  | ap :: _ =>
    if !s.inStep then s
    else if ap.loc && s.flushed c (W8.tstream ap.hdr) then
      let s1 := match s.findLeaf ap.layer ap.half (c / 8) ap.hdr with
        | some (i, leaf) => s.poisonSlot ap.layer ap.half (c / 8) i leaf
        | none => s
      (((s1.unwait true (.clu c)).release ap.h c none).popAppend c).closeTails ap.layer ap.half
    else
      let (slot, s1) := match ap.slot with
        | some x => (some x, s)
        | none => match s.allocSlots 1 true (.clu c) with
          | (some (x :: _), s2) => (some x, (s2.unwait true (.clu c)).writeSlot x ap.hdr (some ap.h) clDisp true 0)
          | (_, s2) => (none, s2)
      match slot with
      | none => s1
      | some x =>
        let (t, s2) := match s1.openTile ap.layer ap.half ap.expert ap.die with
          | some t =>
            let (ok, s3) := s1.tileRecRead .cluRx c t.idx
            (if ok then some t else none, s3)
          | none => s1.newTile ap
        match t with
        | none => if ap.slot.isSome then s2 else s2.returnSlots true [x]
        | some t => (s2.addRow c ap t x).closeTails ap.layer ap.half

/-! ### EXP_TILE (R222, R223) -/

/-- A header slot's packet has bytes still to arrive, or has not given its copy up yet (R214, R215). -/
def State.slotArriving (s : State) (slot : Nat) : Bool :=
  s.links.any (fun k => k.rx.q.any (fun q => q.any (fun p => match p.taken with
    | some (_, slots) => slots.contains slot
    | none => false)))

def State.tileByIdx (s : State) (idx : Nat) : Option Tile := s.tiles.live.find? (fun t => t.idx == idx)

/-- Row-valid mask of `valid` rows in R rows. -/
def rowMask (r valid : Nat) : List Byte := padded16 (leBytes (r / 8) (2 ^ valid - 1))

/-- The payload of each row. -/
def State.tileRows (s : State) (t : Tile) : List Byte :=
  let p := s.dispBytes t.layer
  t.rows.flatMap (fun r => padTo p (s.payload (s.slotHandle r.slot) p))

/-- The row table: each row's scale offset. -/
def State.tileTable (s : State) (t : Tile) : List Byte :=
  padded16 (t.rows.flatMap (fun r => wordBytes (at_ 24 (unsigned 8 (W8.toff (s.slotHdr r.slot))))))

/-- Every row of a tile has arrived. -/
def State.tileIn (s : State) (t : Tile) : Bool := !t.rows.any (fun r => s.slotArriving r.slot)

/-- The tile at the head of die port a that can leave: its rows have all arrived. -/
def State.tileHead (s : State) (a : Nat) : Option Tile :=
  match (s.port a).tiles with
  | [] => none
  | i :: _ => match s.tileByIdx i with
    | none => none
    | some t => if s.tileIn t then some t else none

def State.tileBodyLen (s : State) (t : Tile) : Nat :=
  pad16 (t.r / 8) + pad16 (4 * t.rows.length) + t.rows.length * s.dispBytes t.layer

/-- EXP_TILE leaves: each row's reference is released (R178). One whose record, slots or payloads cannot be read does not. -/
def State.sendTile (s : State) (a : Nat) (t : Tile) : State :=
  let rows := t.rows.map (fun r => (s.slotHandle r.slot, r.slot))
  let p := s.dispBytes t.layer
  let w := s.whiskRec t.layer
  let body := rowMask t.r t.rows.length ++ s.tileTable t ++ s.tileRows t
  let n := (s.half t.layer t.half).tilesSent.getD a 0
  let hdr := dieHdr 2 w.dfmt (t.rows.any (·.poison)) false w.dblock (body.length / 16) t.layer t.half t.r n
    (at_ 21 t.expert ||| at_ 10 t.rows.length) (at_ 0 t.tag) s.stepSeq (at_ 24 t.variant) (at_ 0 (t.ordinal % 65536))
  let (okRec, s0) := (s.updDie a (fun x => { x with tiles := x.tiles.drop 1 })).tileRecRead .dieTx a t.idx
  let (okSlots, s1) := s0.slotsRead .dieTx a (rows.map (·.2))
  let (okPay, s2) := if okRec && okSlots then s1.useHandles p .dieTx a rows else (false, s1)
  if !okPay then s2
  else
    let posted := rows.foldl (fun s r => s.postPay .dieTx a false r.1 0 p) s2
    let sent := (posted.sendDie a hdr body).spend a 0 (creditsFor body.length)
    let s3 := rows.foldl (fun s r => s.release r.1 (8 * a) (some r.2)) sent
    let s4 := s3.updTiles (fun ts => ts.map (fun x => if x.idx = t.idx then { x with sent := true } else x))
    (s4.updHalf t.layer t.half (fun x => { x with tilesSent := updAt x.tilesSent a (· + 1) })).manifestDue t.layer t.half a

/-! ### TILE_MANIFEST (R224) -/

/-- n(e) on a die (R205): local rows and every peer's entries, or the headers received from a lost peer (R252). -/
def State.rowsOf (s : State) (r : HalfRec) (e die : Nat) : Nat :=
  SMap.get zeroAt r.locRows (tileKey e die) +
    (if 1024 ≤ e then 0 else sumNat (r.rx.map (fun x =>
      if s.isLost x.pkg then SMap.get zeroAt x.by_ e
      else match x.man with
        | some (_, es) => sumNat ((es.filter (fun p => p.1 == e)).map (·.2))
        | none => 0)))

def State.manEntry (s : State) (r : HalfRec) (e die : Nat) : List Byte :=
  let k := tileKey e die
  let tail := SMap.get zeroAt r.tails k
  wordsBytes [at_ 0 e, BitVec.ofNat 32 (s.rowsOf r e die), BitVec.ofNat 32 (SMap.get zeroAt r.tilesOf k),
    at_ 24 (tail / 2048) ||| at_ 0 (tail % 2048)]

/-- Experts that a die's manifest lists: routed ones homed there, then the shared ones. -/
def State.manExperts (s : State) (l die : Nat) : List Nat :=
  let r := s.selRec l
  (List.range r.n).filter (fun e => e % s.nRegions == die) ++ (List.range r.shared).map (fun j => 1024 + j)

def State.dieManBody (s : State) (l h die : Nat) : List Byte :=
  let es := (s.manExperts l die).flatMap (fun e => s.manEntry (s.half l h) e die)
  es ++ wordsBytes [crc32c es, 0, 0, 0]

def State.dieManLen (s : State) (l die : Nat) : Nat := 16 * ((s.manExperts l die).length + 1)

def State.sendDieMan (s : State) (a l h : Nat) : State :=
  let body := s.dieManBody l h a
  let hdr := dieHdr 3 0 false true false (body.length / 16) l h 0 0 (at_ 0 (s.manExperts l a).length)
    (BitVec.ofNat 32 ((s.half l h).tilesSent.getD a 0)) s.stepSeq 0 0
  ((s.sendDie a hdr body).spend a 0 (creditsFor body.length)).updDie a (fun p => { p with mans := p.mans.drop 1 })

end Sys2Proof.Machine
end

