-- ==== Sys2Proof/Machine/Results.lean ====
section
/-! DEFINITION. Machine/Results.lean: expert results (R149, R150, R208 to R211, R309 to R311), their delivery to the Ladles
(R307), and the release of received copies (R214, R215). -/

namespace Sys2Proof.Machine

def srcTileTag : Nat := 0x0C
def srcUnexp : Nat := 0x0F

/-! ### Delivery to a Ladle (R307, R319) -/

/-- Give up a delivered result: its payload and its slot. -/
def State.discardRes (s : State) (a slot : Nat) (pay : Option Handle) : State :=
  (match pay with
    | some hd => s.release hd (8 * a) (some slot)
    | none => s).freeSlot slot

/-- The state of the leaf that a result names, where its record exists. -/
def State.leafState (s : State) (l h a i leaf : Nat) : Option LeafState :=
  match s.tok l h a i with
  | some t => if t.recd then (t.leafAt leaf).map (·.st) else none
  | none => none

/-- An unexpected result (R307). -/
def State.unexpected (s : State) (a slot : Nat) (pay : Option Handle) (stream : Nat) : State :=
  ((s.discardRes a slot pay).inc (R.ladleUnexpCnt a) 1).err srcUnexp a (some stream)

/-- Deliver the result in a header slot to Ladle a; true when a leaf holds it from now on. The combine record that it reads is
checked for parity (R462). -/
def State.deliver (s : State) (a slot : Nat) (hd : W8) (pay : Option Handle) : Bool × State :=
  let l := W8.tlayer hd
  let h := W8.thalf hd
  let (bad, s) := s.meet (.combine a)
  if bad then (false, (s.discardRes a slot pay).parityErr (8 * a))
  else match s.findLeaf l h a hd with
  | none => (false, s.unexpected a slot pay (W8.tstream hd))
  | some (i, leaf) =>
    match s.leafState l h a i leaf with
    | some .open_ =>
      match pay with
      | some p =>
        (true, s.updTok l h a i (fun t =>
          { t with avail := t.avail ++ [leaf],
                   leaves := t.leaves.map (fun x => if x.leaf = leaf then { x with st := .used p slot } else x) }))
      | none => (false, (s.poisonSlot l h a i leaf).freeSlot slot)
    | some .lost => (false, (s.discardRes a slot pay).inc (R.ladleLateCnt a) 1)
    | _ => (false, s.unexpected a slot pay (W8.tstream hd))

/-! ### EXP_RESULT (R309 to R311) -/

/-- R149: the message is in the layer's combine format, or in FP32 without block shifts. -/
def State.resFormOk (s : State) (l : Nat) (h : W8) : Bool :=
  let w := s.whiskRec l
  (W8.dfmt h == w.cfmt && W8.dblock h == w.cblock) || (W8.dfmt h == 0 && !W8.dblock h)

/-- Its rows must be converted to the layer's combine format (R150). -/
def State.needsConv (s : State) (l : Nat) (h : W8) : Bool :=
  let w := s.whiskRec l
  !(W8.dfmt h == w.cfmt && W8.dblock h == w.cblock)

/-- P of a message (R309). -/
def State.resRowBytes (s : State) (l : Nat) (h : W8) : Nat := payloadBytes (W8.dfmt h) (W8.dblock h) (s.gateRec l).h

/-- The tile that a TILE_TAG names among those that await results on die port a (R225). -/
def State.tagTile (s : State) (a : Nat) (w3 : Word) : Option Tile :=
  s.tiles.live.find? (fun t => t.sent && t.die == a && t.idx == fld w3 15 0 && t.gen == fld w3 23 16)

def resFirst (h : W8) : Nat := fld h.w2 10 0

/-- R310. -/
def State.resOk (s : State) (t : Tile) (h : W8) : Bool :=
  let n := W8.drows h
  let f := resFirst h
  fld h.w2 31 21 == t.expert && W8.dlayer h == t.layer && W8.dhalf h == t.half && !W8.dlast h &&
    decide (f + n ≤ t.rows.length) && ((t.rows.drop f).take n).all (fun r => !r.back) && W8.dseq h == s.stepSeq &&
    s.resFormOk t.layer h && 16 * W8.dlen h == n * s.resRowBytes t.layer h

/-- A returned row is marked, and the record is freed after the last one (R310, R225). -/
def State.rowBack (s : State) (t : Tile) (k : Nat) : State :=
  let s1 := s.updTiles (fun ts => ts.map (fun x =>
    if x.idx = t.idx then { x with rows := x.rows.modify k (fun r => { r with back := true }) } else x))
  match s1.tileByIdx t.idx with
  | some x =>
    if x.rows.all (·.back) then
      { s1 with tiles := { live := s1.tiles.live.filter (fun y => y.idx != t.idx),
                           gens := SMap.set zeroAt s1.tiles.gens t.idx ((t.gen + 1) % 256) } }
    else s1
  | none => s1

/-- The payload of a result row in the layer's combine format, and what its conversion counts. -/
def State.resBytesOf (s : State) (l : Nat) (h : W8) (bs : List Byte) : List Byte × ConvEv :=
  if s.needsConv l h then
    let w := s.whiskRec l
    encodePayload w.cfmt w.cblock true 0 (decodePayload 0 false 0 (s.gateRec l).h bs)
  else (bs, {})

/-- A result with its payload, or poisoned, goes to its Ladle or into a packet (R208). -/
def State.routeRes (s : State) (t : Tile) (k slot : Nat) (hd : W8) (pay : Option Handle) : State :=
  let own := W8.tdest hd == s.self
  let s1 := (s.writeSlot slot hd pay clRes own (at_ 0 t.tag)).setOwner slot (at_ 0 t.tag) (at_ 0 k) 0
  if own then (s1.deliver (W8.tclu hd / 8) slot hd pay).2
  else s1.sendPkt (TxPkt.own 3 (s.cmidOf (W8.tdest hd)) 1 hd.bytes (pay.map (fun p => (p, 16 * W8.tlen hd))) [slot])

/-- R150: the Whisk of region a reads the layer's record to convert a row, where the row needs it. -/
def State.convRead (s : State) (a l : Nat) (h : W8) : Bool × State :=
  if s.needsConv l h then s.whiskRecRead a l else (true, s)

/-- Row k of a tile comes back: false when its payload must wait for the Hive, or its layer's Whisk record fails (R144). Its header
slot is read under SECDED (R160): where that fails, nothing is routed. -/
def State.resRow (s : State) (a k : Nat) (t : Tile) (h : W8) (bs : List Byte) : Bool × State :=
  match t.rows[k]? with
  | none => (true, s)
  | some r =>
    let (ok, s) := s.slotRead .dieRx a r.slot
    let d := s.slotHdr r.slot
    let poison := W8.dpoison h || r.poison
    let res := s.resHdr d poison
    if !ok then (true, s.rowBack t k)
    else if s.owedNothing (W8.tsrc d) then (true, (s.freeSlot r.slot).rowBack t k)
    else if poison then (true, (s.routeRes t k r.slot res none).rowBack t k)
    else match s.convRead a t.layer h with
      | (false, s0) => (false, s0)
      | (true, s0) =>
      match s0.allocPay clRes (s0.resBytes t.layer) 1 (W8.tsrc d == s.self) (.resPort a) with
      | (none, s1) => (false, s1)
      | (some p, s1) =>
        let out := s.resBytesOf t.layer h bs
        let s2 := (((s1.postPay .dieRx a true p 0 out.1.length).writePay p 0 out.1).inc (R.whiskResSatCnt a) out.2.sat).inc (R.whiskNanCnt a) out.2.nan
        (true, (s2.routeRes t k r.slot res (some p)).rowBack t k)

/-- The next row of the message at the head of RES staging: false when it must wait. -/
def State.resNext (s : State) (a : Nat) (m : Staged) (t : Tile) : Bool × State :=
  let p := s.resRowBytes t.layer m.h
  match s.resRow a (resFirst m.h + m.rows) t m.h (slice m.body (m.rows * p) p) with
  | (false, s1) => (false, s1)
  | (true, s1) =>
    let earned := (32 + (m.rows + 1) * p) / 4096
    let s2 := s1.updDie a (fun d =>
      { d with res := updAt d.res 0 (fun x => { x with rows := x.rows + 1, owed := max x.owed earned, checked := true }) })
    (true, s2.owe a 1 (earned - m.owed))

/-- A TILE_TAG that names no waiting tile: the message is discarded (R225); R474 names cluster 8a. -/
def State.badTag (s : State) (a : Nat) : State := (s.unstage a 1).err srcTileTag (8 * a) none

/-- What the head of RES staging asks for: the tile it names once it has passed its checks. -/
def State.resHead (s : State) (a : Nat) (m : Staged) : Option Tile :=
  match s.tagTile a m.h.w3 with
  | some t => if 0 < m.rows || s.resOk t m.h then some t else none
  | none => none

/-- Results leave staging in order. Rows that a Whisk must convert wait for it, unless `conv` rows may pass. DESIGN
CHOICE (assumption row 96): a message of no rows that passes R310 is over at once, and its credits go back. -/
def State.pumpRes (s : State) (a : Nat) : Nat → Nat → State
  | 0, _ => s
  | fuel + 1, conv =>
    match s.stagedBad a 1, (s.port a).res with
    | some s1, _ => s1.pumpRes a fuel conv
    | none, [] => s
    | none, m :: _ =>
      if !m.checked && !(m.h.ok && W8.msg m.h == 4) then (s.dropStaged a 1).pumpRes a fuel conv
      else if W8.drows m.h ≤ m.rows ∧ 0 < m.rows then (s.unstage a 1).pumpRes a fuel conv
      else if (s.tagTile a m.h.w3).isNone then (s.badTag a).pumpRes a fuel conv
      else match s.resHead a m with
        | none => (s.dropStaged a 1).pumpRes a fuel conv
        | some t =>
          if W8.drows m.h = 0 then (s.unstage a 1).pumpRes a fuel conv
          else if s.needsConv t.layer m.h && conv == 0 then s
          else
            match s.resNext a m t with
            | (false, s1) => s1
            | (true, s1) => s1.pumpRes a fuel (if s.needsConv t.layer m.h then conv - 1 else conv)

/-- Enough steps for every staged row and message of RES. -/
def State.resFuel (s : State) (a : Nat) : Nat :=
  sumNat ((s.port a).res.map (fun m => W8.drows m.h + 2)) + 1

/-- EXP_RESULT arrives on die port a. -/
def State.expResult (s : State) (a : Nat) (h : W8) (body : List Byte) : State :=
  if s.awake && !(h.ok && W8.msg h == 4) then s.dieBad a (some 1) (16 * W8.dlen h)
  else
    let s1 := s.stage a 1 h body s.awake
    if s1.awake then s1.pumpRes a (s1.resFuel a) 0 else s1

/-! ### Results on VC3 (R209) -/

/-- A result of link n that came before has been taken and not yet handed to its Ladle. -/
def State.resultsBefore (s : State) (n : Nat) : Bool :=
  (s.rxq n 3).any (fun q => q.relay.isNone && q.taken.isSome && !q.released)

/-- RESULT_PACKET_RX: cluster n / 2 takes the oldest result of link n. A poisoned one, which has no payload to wait for, goes to its
Ladle at once, or after the results that came before it. -/
def State.resultRx (s : State) (n : Nat) : State :=
  match s.rxHead n 3 with
  | none => s
  | some (i, p) =>
    let h0 := p.hdr 0
    if !s.member then s
    else if p.pab && !p.hdrsIn then (s.unwait true (.rx n 3)).rxRemove n 3 i
    else if !s.pktOk 3 p then s.pktBad n 3 i p
    else if s.stepOf h0 ≠ some 0 then (s.unwait true (.rx n 3)).rxStepBad n 3 i h0
    else match s.allocSlots 1 true (.rx n 3) with
      | (some (slot :: _), s1) =>
        if W8.tpoison h0 then
          let s2 := ((s1.unwait true (.rx n 3)).writeSlot slot h0 none clRes true 0).setOwner slot 0 0 0
          if s2.resultsBefore n then s2.rxTake n 3 i p none [slot] true
          else ((s2.deliver (W8.tclu h0 / 8) slot h0 none).2).rxDiscard n 3 i
        else match s1.allocPay clRes (16 * W8.tlen h0) 1 true (.rx n 3) with
          | (none, s2) => s2.returnSlots true [slot]
          | (some hd, s2) =>
            let s3 := ((s2.unwait true (.rx n 3)).writeSlot slot h0 (some hd) clRes true 0).setOwner slot 0 0 0
            s3.rxTake n 3 i p (some hd) [slot] true
      | (_, s1) => s1

/-! ### Releasing copies to their consumers (R214, R215) -/

/-- Payload bytes that have arrived. -/
def RxPkt.got (p : RxPkt) : Nat := min (p.bytes.length - 32 * p.nhdr) (16 * W8.tlen (p.hdr 0))

/-- R214: the copies of a taken packet may go to their consumers. -/
def RxPkt.releasable (p : RxPkt) : Bool :=
  p.whole || (p.cut != 0 && decide (min p.cut (16 * W8.tlen (p.hdr 0)) ≤ p.got))

/-- The bytes that never arrived read as zero (R215). -/
def State.zeroFill (s : State) (n : Nat) (p : RxPkt) (hd : Handle) : State :=
  let len := 16 * W8.tlen (p.hdr 0)
  match s.useHandle hd len .cluRx (n / 2) (p.taken.bind (fun t => t.2.head?)) with
  | (true, s1) => (s1.postPay .cluRx (n / 2) true hd p.got (len - p.got)).writePay hd p.got (List.replicate (len - p.got) 0)
  | (false, s1) => s1

/-- The copies of a dispatch packet join the append queue of their cluster. DESIGN CHOICE (assumption row 96): a copy of a
shared expert that a link brings goes to compute die 0, since R62 names no die for it. -/
def State.appendPeer (s : State) (n : Nat) (p : RxPkt) (hd : Handle) (slots : List Nat) (poison : Bool) : State :=
  s.updClu (n / 2) (fun k => { k with appendQ := k.appendQ ++ (p.hdrs.zip slots).map (fun q =>
    { layer := W8.tlayer q.1, half := W8.thalf q.1, expert := W8.texpert q.1, die := s.dieOf (W8.texpert q.1) 0, hdr := q.1,
      slot := some q.2, h := hd, poison := poison, loc := false, link := n }) })

/-- A consumed dispatch packet was abandoned: its rows are poisoned, appended or not. -/
def State.poisonRows (s : State) (slots : List Nat) : State :=
  let s1 := s.updTiles (fun ts => ts.map (fun t =>
    { t with rows := t.rows.map (fun r => if slots.contains r.slot then { r with poison := true } else r) }))
  { s1 with clus := s1.clus.map (fun c => { c with appendQ := c.appendQ.map (fun (a : Append) =>
      if a.slot.any (fun x => slots.contains x) then { a with poison := true } else a) }) }

/-- A consumed result was abandoned: its leaf is poisoned. -/
def State.poisonUsed (s : State) (hd : W8) (slot : Nat) (pay : Handle) : State :=
  let l := W8.tlayer hd
  let h := W8.thalf hd
  let a := W8.tclu hd / 8
  let holds := fun (x : Leaf) => x.st == .used pay slot
  match (s.portHalf l h a).toks.findIdx? (fun t => t.leaves.any holds) with
  | none => s
  | some i =>
    match s.tok l h a i with
    | none => s
    | some t => match t.leaves.find? holds with
      | none => s
      | some x =>
        ((s.updTok l h a i (fun u => { u with avail := u.avail.filter (· != x.leaf) })).poisonSlot l h a i x.leaf).discardRes a
          slot (some pay)

/-- A packet abandoned after its copies were released (R215). -/
def State.cutAbort (s : State) (n v : Nat) (p : RxPkt) (hd : Handle) (slots : List Nat) : State :=
  let c := n / 2
  let h0 := p.hdr 0
  let s1 := ((s.zeroFill n p hd).inc (R.cluCutAbortCnt c) 1).cluEvent c ceCutAbort h0.w1 (evSrcLink h0 n)
  if v = 2 then s1.poisonRows slots else slots.foldl (fun s x => s.poisonUsed h0 x hd) s1

/-- First release of packet i: it stays in the buffer's queue until it is whole. -/
def State.releaseCopies (s : State) (n v i : Nat) (p : RxPkt) (hd : Handle) (slots : List Nat) : State :=
  let s1 := if p.whole then s.setRxq n v ((s.rxq n v).eraseIdx i) else s.setRx n v i { p with released := true }
  let bad := p.whole && p.pab
  if v = 2 then (if bad then s1.zeroFill n p hd else s1).appendPeer n p hd slots bad
  else
    let slot := slots.headD 0
    let h0 := p.hdr 0
    if bad then ((s1.release hd (n / 2) (some slot)).deliver (W8.tclu h0 / 8) slot h0 none).2
    else match s1.deliver (W8.tclu h0 / 8) slot h0 (some hd) with
      | (true, s2) => s2
      | (false, s2) => if p.whole then s2 else s2.setRx n v i { p with relay := some 64, taken := none, released := true }

/-- CUT_THROUGH_RELEASE: the oldest packet of the VC whose copies can go, or that has arrived whole since. A poisoned result that
waited for its turn (R209) goes like one that can. -/
def State.cutRelease (s : State) (n v : Nat) : State :=
  let can := fun (p : RxPkt) => match p.taken with
    | some (some _, _) => p.counted && ((!p.released && p.releasable) || (p.released && p.whole))
    | some (none, _) => v == 3 && p.relay.isNone && p.counted && !p.released
    | none => false
  match (s.rxq n v).zipIdx.find? (fun q => can q.1) with
  | none => s
  | some (p, i) =>
    match p.taken with
    | some (some hd, slots) => s.checked (.packet n) (n / 2) (fun t => t.rxDiscard n v i) fun s =>
      if !p.released then s.releaseCopies n v i p hd slots
      else
        let s1 := s.setRxq n v ((s.rxq n v).eraseIdx i)
        if p.pab then s1.cutAbort n v p hd slots else s1
    | some (none, slots) => s.checked (.packet n) (n / 2) (fun t => t.rxDiscard n v i) fun s =>
      ((s.deliver (W8.tclu (p.hdr 0) / 8) (slots.headD 0) (p.hdr 0) none).2).rxDiscard n v i
    | none => s

end Sys2Proof.Machine
end

