-- ==== Sys2Proof/Machine/Ladle.lean ====
section
/-! DEFINITION. Machine/Ladle.lean: the Ladles (spec/11): the ordered tree and the open sum, conversion, the window of store
rows, COMB_RESULT messages and the layer digest. -/

namespace Sys2Proof.Machine

/-! ### The window (R316) -/

/-- Combined row bytes of a layer: R315's row, or FP32. -/
def State.combRowBytes (s : State) (l : Nat) : Nat :=
  if s.eff F.ladleCtlOutFp32 = 1 then pad16 (4 * (s.gateRec l).h) else s.resBytes l

/-- B of R316. -/
def State.storeRowBytes (s : State) (l : Nat) : Nat :=
  if s.step.ordered then s.combRowBytes l else 4 * (s.gateRec l).h

/-- W of R316. -/
def State.windowOf (s : State) (l : Nat) : Nat := min 4096 (0x800000 / max 1 (s.storeRowBytes l))

/-- Tokens of die port a that have a combine record and have not left, in arrival order. -/
def State.ladleQueue (s : State) (a : Nat) : List (Nat × Nat × Nat × Tok) :=
  s.halvesInOrder.flatMap (fun k =>
    ((s.portHalf k.1 k.2 a).toks.zipIdx.filter (fun q => q.1.recd && !q.1.sent)).map (fun q => (k.1, k.2, q.2, q.1)))

/-- The tokens that hold a store row; W is that of the layer at the head. -/
def State.ladleWindow (s : State) (a : Nat) : List (Nat × Nat × Nat × Tok) :=
  let q := s.ladleQueue a
  match q with
  | [] => []
  | x :: _ => q.take (s.windowOf x.1)

/-- LADLE_STATE[a] follows the window head. -/
def State.ladleState (s : State) (a : Nat) : State :=
  match s.ladleQueue a with
  | [] => s
  | (l, h, _, _) :: _ =>
    ((s.put (F.ladleStateLayer a) l).put (F.ladleStateHalf a) h).put (F.ladleStateWindow a) (s.windowOf l)

/-! ### Contributions (R306, R312) -/

def LeafState.closed : LeafState → Bool
  | .open_ => false
  | _ => true

def Leaf.slot (x : Leaf) : Option (Handle × Nat) :=
  match x.st with
  | .used h n => some (h, n)
  | _ => none

/-- Complete, and every result it uses has arrived whole (R306, R214). -/
def State.tokComplete (s : State) (t : Tok) : Bool :=
  t.leaves.all (fun x => x.st.closed && (match x.slot with
    | some (_, n) => !s.slotArriving n
    | none => true))

/-- The elements of a result as binary32 codes (R312). -/
def State.resValues (s : State) (l : Nat) (h : Handle) : List Nat :=
  let w := s.whiskRec l
  (decodePayload w.cfmt w.cblock 0 (s.gateRec l).h (s.payload h (s.resBytes l))).map rne32

/-- The gate weight and elements of each usable contribution, by leaf index. -/
def State.contribs (s : State) (l : Nat) (t : Tok) : List (Nat × Nat × List Nat) :=
  t.leaves.filterMap (fun x => x.slot.map (fun p => (x.leaf, (s.slotHdr p.2).w3.toNat, s.resValues l p.1)))

/-! ### The ordered tree (R313) -/

/-- Add one contribution into a running sum of H elements. -/
def fmaRow (g : Nat) (r acc : List Nat) : List Nat := (acc.zip r).map (fun p => fma32 g p.2 p.1)

def addRow (acc v : List Nat) : List Nat := (acc.zip v).map (fun p => add32 p.1 p.2)

/-- Level 0: node j over leaves F·j to F·j + F − 1. -/
def levelZero (f n h : Nat) (cs : List (Nat × Nat × List Nat)) : List (List Nat) :=
  (List.range (ceilDiv n f)).map (fun j =>
    (List.range (min f (n - f * j))).foldl (fun acc q =>
      match cs.find? (fun c => c.1 == f * j + q) with
      | some c => fmaRow c.2.1 c.2.2 acc
      | none => acc) (List.replicate h 0))

/-- The higher levels, until one value is left. -/
def treeUp (f h : Nat) : Nat → List (List Nat) → List (List Nat)
  | 0, vs => vs
  | fuel + 1, vs =>
    if vs.length ≤ 1 then vs
    else treeUp f h fuel ((chunksOf f vs.length vs).map (fun g => g.foldl addRow (List.replicate h 0)))

/-- The FP32 sum of a token in ordered mode: node width f, n leaf positions, h elements. -/
def orderedSum (f n h : Nat) (cs : List (Nat × Nat × List Nat)) : List Nat :=
  ((treeUp f h n (levelZero f n h cs)).head?).getD (List.replicate h 0)

/-- Leaf positions of a layer: k + SHARED (R305). -/
def State.leafCount (s : State) (l : Nat) : Nat := (s.selRec l).k + (s.selRec l).shared

/-! ### COMB_RESULT: which message is ready (R321) -/

/-- MSG_ROWS in force. -/
def State.msgRows (s : State) : Nat := clampNat (s.eff F.ladleCtlMsgRows) 1 64

/-- The COMB_RESULTs of a die port that hold all of their rows, in the order in which they became ready (R213, R321). -/
def State.combQueue (s : State) (a : Nat) : List (Nat × Nat × Nat) := s.step.combQ.getD a []

/-- Every message of a (layer, half) that has become ready joins the queue of its die port: within the half in ascending
arrival index, each once it holds all of its rows. -/
def State.combDue (s : State) (a l h : Nat) : Nat → State
  | 0 => s
  | fuel + 1 =>
    let p := s.portHalf l h a
    let mine := (s.combQueue a).filter (fun m => m.1 == l && m.2.1 == h)
    let start := p.sent + sumNat (mine.map (·.2.2))
    let rows := (p.toks.drop start).take s.msgRows
    let allOut := p.combDone || (p.toks.length ≤ start && (0 < start || !mine.isEmpty))
    if (s.half l h).cap = 2 && p.last && !allOut && rows.all (fun t => t.row.isSome) then
      (s.updStep (fun t => { t with combQ := updAt t.combQ a (· ++ [(l, h, rows.length)]) })).combDue a l h fuel
    else s

/-- A bound on the messages of a (layer, half). -/
def State.combFuel (s : State) (a l h : Nat) : Nat := (s.portHalf l h a).toks.length + 1

/-- The next message of a die port: its (layer, half), its rows, and whether it is the half's last. -/
def State.combNext (s : State) (a : Nat) : Option (Nat × Nat × List Tok × Bool) :=
  match s.combQueue a with
  | [] => none
  | (l, h, n) :: _ =>
    let p := s.portHalf l h a
    some (l, h, (p.toks.drop p.sent).take n, decide (p.toks.length ≤ p.sent + n))

/-! ### The combined row (R315) -/

/-- The row of an FP32 sum, and what its conversion counts. -/
def State.combRow (s : State) (l : Nat) (sum : List Nat) : List Byte × Nat :=
  if s.eff F.ladleCtlOutFp32 = 1 then (padded16 (sum.flatMap (leBytes 4)), 0)
  else
    let w := s.whiskRec l
    let r := encodePayload w.cfmt w.cblock true 0 (sum.map dec32)
    (r.1, r.2.sat + r.2.nan)

/-- Each used result of a token is read once and released (R178, R317). -/
def State.releaseLeaves (s : State) (a l : Nat) (t : Tok) : State :=
  t.leaves.foldl (fun s x => match x.slot with
    | some (h, n) => (((s.postPay .ladle a false h 0 (s.resBytes l)).release h (8 * a) (some n)).freeSlot n).inc (R.ladleContribCnt a) 1
    | none => s) s

/-- The row is written to the token's store row. -/
def State.storeRow (s : State) (a l h i : Nat) (sum : List Nat) : State :=
  let r := s.combRow l sum
  (s.inc (R.ladleSatCnt a) r.2).updTok l h a i (fun t => { t with row := some r.1, sums := none })

/-- A token of the window can be combined: it has no row yet and is complete, and in open mode all of its results are added. -/
def State.combReady (s : State) (x : Nat × Nat × Nat × Tok) : Bool :=
  x.2.2.2.row.isNone && s.tokComplete x.2.2.2 && (s.step.ordered || x.2.2.2.avail.isEmpty)

/-- LADLE_STATE[a].BUSY (R329): a combine or the conversion of its row is running, from the moment a token of the window, or in open
mode a result for one, is ready until the command that ends it (DESIGN CHOICE, assumption row 118). -/
def State.ladleBusy (s : State) (a : Nat) : Bool :=
  s.inStep && (s.ladleWindow a).any (fun x => s.combReady x || (!s.step.ordered && !x.2.2.2.avail.isEmpty))

/-- LADLE_COMBINE_TOKEN: the first complete token of the window (R317); `waited` are the F-ARITH cycles since the last
combine in which the head was incomplete while a later row was ready. -/
def State.combineToken (s : State) (a waited : Nat) : State :=
  if !s.inStep then s
  else match (s.ladleWindow a).find? s.combReady with
    | none => s
    | some (l, h, i, t) =>
      let used := t.leaves.filterMap (·.slot)
      let (okSlots, s') := (s.inc (R.ladleHeadWaitCnt a) waited).slotsRead .ladle a (used.map (·.2))
      let (ok, s0) := if okSlots then s'.useHandles (s.resBytes l) .ladle a used else (false, s')
      if !ok then s0
      else
        let w := (s.gateRec l).h
        let sum := if s.step.ordered then orderedSum s.nRegions (s.leafCount l) w (s.contribs l t)
          else t.sums.getD (List.replicate w 0)
        let s1 := (s0.storeRow a l h i sum).releaseLeaves a l t
        (s1.combDue a l h (s1.combFuel a l h)).ladleState a

/-! ### Open mode (R314) -/

/-- LADLE_ADD_RESULT: the oldest available result of the first token of the window that has one. -/
def State.addResult (s : State) (a : Nat) : State :=
  if !s.inStep || s.step.ordered then s
  else match (s.ladleWindow a).find? (fun x => !x.2.2.2.avail.isEmpty) with
    | none => s
    | some (l, h, i, t) =>
      match t.leafAt (t.avail.headD 0) with
      | none => s
      | some x => match x.slot with
        | none => s
        | some (hd, n) =>
          let (okSlot, s) := if s.slotArriving n then (false, s) else s.slotRead .ladle a n
          let (ok, s) := if okSlot then s.useHandle hd (s.resBytes l) .ladle a (some n) else (false, s)
          if !ok then s
          else
            let acc := t.sums.getD (List.replicate (s.gateRec l).h 0)
            let sum := fmaRow (s.slotHdr n).w3.toNat (s.resValues l hd) acc
            let s1 := s.updTok l h a i (fun u =>
              { u with avail := u.avail.drop 1, sums := some sum,
                       leaves := u.leaves.map (fun y => if y.leaf = x.leaf then { y with st := .added } else y) })
            ((((s1.postPay .ladle a false hd 0 (s.resBytes l)).release hd (8 * a) (some n)).freeSlot
              n).inc (R.ladleContribCnt a) 1).ladleState a

/-! ### COMB_RESULT: the message (R321, R322) -/

/-- The row-table word of a token (R322). -/
def Tok.word (t : Tok) : Word := at_ 18 t.stream ||| at_ 1 t.pos ||| at_ 0 (b2n t.poison)

def combBody (rows : List Tok) : List Byte :=
  padded16 (rows.flatMap (fun t => wordBytes t.word)) ++ rows.flatMap (fun t => t.row.getD [])

/-- R324: what the rows of a message add to their layer's digest. -/
def digestOf (rows : List Tok) : Nat :=
  rows.foldl (fun d t => (d + (crc32c (wordBytes t.word ++ t.row.getD [])).toNat) % 2 ^ 32) 0

/-- Body length of a COMB_RESULT of so many rows. -/
def State.combLen (s : State) (l rows : Nat) : Nat := pad16 (4 * rows) + rows * s.combRowBytes l

/-- COMB_RESULT leaves: its store rows are freed. -/
def State.sendComb (s : State) (a l h : Nat) (toks : List Tok) (last : Bool) : State :=
  -- every row of a torn stream leaves poisoned (R471)
  let rows := toks.map (fun t => { t with poison := t.poison || s.step.torn.contains t.stream })
  let p := s.portHalf l h a
  let w := s.whiskRec l
  let f32 := s.eff F.ladleCtlOutFp32 = 1
  let body := combBody rows
  let hdr := dieHdr 5 (if f32 then 0 else w.cfmt) (rows.any (·.poison)) last (!f32 && w.cblock) (body.length / 16) l h
    rows.length p.msgs (at_ 0 p.sent) 0 s.stepSeq 0 0
  let s1 := ((s.sendDie a hdr body).spend a 1 (creditsFor body.length)).updStep (fun t =>
    { t with combQ := updAt t.combQ a (·.drop 1) })
  let n := p.sent + rows.length
  let s2 := s1.updPort l h a (fun p =>
    { p with sent := n, msgs := p.msgs + 1, combDone := last
             toks := p.toks.mapIdx (fun i t => if i < n then { t with sent := true, row := none } else t) })
  let s3 := (s2.inc (R.ladleTokCnt a) rows.length).updLayer l (fun r =>
    { r with digest := (r.digest + digestOf rows) % 2 ^ 32 })
  s3.ladleState a

/-! ### Lost slots (R252, R320) -/

/-- Cancel the open routed slots of one token whose final destination is a package. -/
def State.loseTok (s : State) (pkg l h a i : Nat) : State :=
  match s.tok l h a i with
  | none => s
  | some t =>
    if !t.recd then s
    else
      let hit := fun (x : Leaf) => decide (x.expert < 1024) && x.dest == pkg && x.st == .open_
      let n := (t.leaves.filter hit).length
      if n = 0 then s
      else
        let s1 := s.updTok l h a i (fun u =>
          { u with leaves := u.leaves.map (fun x => if hit x then { x with st := .lost } else x) })
        ((s1.inc R.rosterLostSlotCnt n).updCnt (fun c => { c with lost := c.lost + n })).bumpStream .ladle a t.stream
          (fun x => { x with losts := x.losts + n })

/-- Every open slot bound for a package is lost (R252). -/
def State.loseSlots (s : State) (pkg : Nat) : State :=
  s.halvesInOrder.foldl (fun s k => s.eachTok k.1 k.2 (fun s a i => s.loseTok pkg k.1 k.2 a i)) s

end Sys2Proof.Machine
end

