-- ==== Sys2Proof/Machine/Swarm.lean ====
section
/-! DEFINITION. Machine/Swarm.lean: Swarm collectives (R332 to R356): groups and ranks, the reduction tree, the work of a node,
results and their signals, and poison. -/

namespace Sys2Proof.Machine

abbrev ChunkKey := Nat × Nat × Nat × Nat

def Chunk.key (c : Chunk) : ChunkKey := (c.step, c.group, c.coll, c.chunk)

/-! ### Groups (R332 to R336, R370) -/

/-- SWARM_GROUP[g] for a collective of step x: the value in force for the current step, the written one for the next. -/
def State.groupWord (s : State) (g x : Nat) : Word :=
  if x = s.curSeq then s.effWord (R.swarmGroup g) else s.word (R.swarmGroup g)

/-- Scope of group g: 0 in island mode (R333), reserved codes act as 3; group 15 has scope 3 (R336). -/
def State.groupScope (s : State) (g x : Nat) : Nat :=
  if !s.member then 0
  else if g = 15 then 3
  else
    let k := fld (s.groupWord g x) 31 29
    if 5 ≤ k then 3 else k

def State.groupDies (s : State) (g x : Nat) : Nat := if g = 15 then 0 else fld (s.groupWord g x) 28 25

/-- Chunk size (R339, R369). -/
def State.groupChunk (s : State) (g x : Nat) : Nat :=
  4096 * 2 ^ (if g = 15 then 4 else min 6 (fld (s.groupWord g x) 24 22))

/-- The dispatch domains that DOMS names. -/
def State.groupDoms (s : State) (g x : Nat) : List Nat :=
  (List.range 8).filter (fun d => (fld (s.groupWord g x) 19 12).testBit d)

def State.groupRep (s : State) (g x : Nat) : Nat := fld (s.groupWord g x) 8 0

/-- A barrier over domains names a group (R357); trees are described by this record. -/
structure TreeDesc where
  scope : Nat
  /-- members in the own dispatch domain, ascending -/
  members : List Nat
  doms : List Nat
  rep : Nat
  deriving DecidableEq, Repr

/-- The members of a scope in the own dispatch domain (R332). -/
def scopeMembers (scope self : Nat) (ms : List Nat) : List Nat :=
  if scope = 0 then [self]
  else if scope = 1 then ms.filter (fun p => p / 8 == self / 8)
  else if scope = 2 then ms.filter (fun p => p / 64 == self / 64)
  else ms

/-- The tree of group g at step x. -/
def State.groupTree (s : State) (g x : Nat) : TreeDesc :=
  let k := s.groupScope g x
  ⟨k, scopeMembers k s.self (s.membersAt x), s.groupDoms g x, s.groupRep g x⟩

/-! ### Ranks (R334) -/

/-- Regions of a package: its own grade, or that of a direct peer (R280); of any other member a free value (assumption
row 60). -/
def State.regionsOf (s : State) (p : Nat) : Nat :=
  if p = s.self then s.nRegions
  else match (List.range s.nLinks).find? (fun n => s.flag (F.linkPeerValid n) && s.get (F.linkPeerPeerId n) == s.cmidOf p) with
    | some n => if s.flag (F.linkPeerGrade n) then 3 else 4
    | none => if Config.memberE24 (s.cmidOf p) then 3 else 4

/-- The participating dies of a package. -/
def State.diesOf (s : State) (g x p : Nat) : List Nat :=
  (List.range (s.regionsOf p)).filter (fun d => (s.groupDies g x).testBit d)

/-- (package, die) by rank. -/
def State.ranks (s : State) (g x : Nat) : List (Nat × Nat) :=
  (s.groupTree g x).members.flatMap (fun p => (s.diesOf g x p).map (fun d => (p, d)))

def State.rankAt (s : State) (g x r : Nat) : Option (Nat × Nat) := (s.ranks g x)[r]?

/-- The rank that chunk c of a REDUCE_SCATTER or an ALLGATHER belongs to. -/
def State.chunkRank (s : State) (g x c : Nat) : Option (Nat × Nat) :=
  let n := (s.ranks g x).length
  if n = 0 then none else s.rankAt g x (c % n)

/-- The only source of a forwarded chunk (R337); none for a sum. -/
def State.chunkSource (s : State) (c : Chunk) : Option (Nat × Nat) :=
  if c.shape.op = 3 then s.chunkRank c.group c.step c.chunk
  else if c.shape.op = 4 then s.rankAt c.group c.step c.shape.root
  else none

/-- The only recipient of a REDUCE_SCATTER chunk; none where every die is one. -/
def State.chunkTarget (s : State) (c : Chunk) : Option (Nat × Nat) :=
  if c.shape.op = 2 then s.chunkRank c.group c.step c.chunk else none

/-! ### The tree (R345) -/

/-- The part of a package id that names the child of a level. -/
def childPart (level p : Nat) : Nat := if level ≤ 1 then p else if level = 2 then p / 8 else p / 64

/-- The least member that shares a part of its id with p. -/
def leastWith (ms : List Nat) (d p : Nat) : Nat := (ms.find? (fun m => m / d == p / d)).getD p

/-- Where the node of a level above package p sits, as a collective member id. -/
def State.seat (s : State) (t : TreeDesc) (level p : Nat) : Nat :=
  if level = 0 then s.cmidOf p
  else if level = 1 then s.cmidOf (leastWith t.members 8 p)
  else if level = 2 then s.cmidOf (leastWith t.members 64 p)
  else if level = 3 then s.cmidOf (if t.scope = 4 then t.rep else t.members.headD p)
  else 512 * t.doms.headD 0 + t.rep

/-- Distinct parts, ascending. -/
def parts (d : Nat) (ms : List Nat) : List Nat := ms.foldl (fun acc m => insertAsc (m / d) acc) []

/-- Children of the own node of a level at 1 and above: (child, seat). -/
def State.kids (s : State) (t : TreeDesc) (level : Nat) : List (Nat × Nat) :=
  let me := s.self
  if level = 1 then (t.members.filter (fun p => p / 8 == me / 8)).map (fun p => (p, s.cmidOf p))
  else if level = 2 then
    (parts 8 (t.members.filter (fun p => p / 64 == me / 64))).map (fun k => (k, s.cmidOf (leastWith t.members 8 (8 * k))))
  else if level = 3 then (parts 64 t.members).map (fun k => (k, s.cmidOf (leastWith t.members 64 (64 * k))))
  else if level = 4 then t.doms.map (fun d => (d, 512 * d + t.rep))
  else []

/-- The levels at which a node of the tree sits on this package. -/
def State.ownLevels (s : State) (t : TreeDesc) : List Nat :=
  (List.range (t.scope + 1)).filter (fun k => s.seat t k s.self == s.cmid)

/-- The own node's name among its parent's children. -/
def State.ownChild (s : State) (level : Nat) : Nat :=
  if level = 0 then s.self else if level = 1 then s.self / 8 else if level = 2 then s.self / 64 else s.dom

/-! ### Chunks -/

def State.chunkOf (s : State) (k : ChunkKey) : Option Chunk := s.swarm.chunks.find? (fun c => c.key == k)

def State.updSwarm (s : State) (f : Swarm → Swarm) : State := { s with swarm := f s.swarm }

def State.updChunk (s : State) (k : ChunkKey) (f : Chunk → Chunk) : State :=
  s.updSwarm (fun w => { w with chunks := w.chunks.map (fun c => if c.key = k then f c else c) })

def Chunk.node (c : Chunk) (level : Nat) : Option SwmNode := c.nodes.find? (fun n => n.level == level)

def Chunk.updNode (c : Chunk) (level : Nat) (f : SwmNode → SwmNode) : Chunk :=
  { c with nodes := c.nodes.map (fun n => if n.level = level then f n else n) }

def State.updNode (s : State) (k : ChunkKey) (level : Nat) (f : SwmNode → SwmNode) : State :=
  s.updChunk k (fun c => c.updNode level f)

/-- A summing collective. -/
def Chunk.sums (c : Chunk) : Bool := c.shape.op == 1 || c.shape.op == 2

/-- Package p lies below the child of a level. -/
def below (level child p : Nat) : Bool := childPart level p == child

/-- A die, or the Keepers, of a package take part in the chunk (R334, R336). -/
def State.takesPart (s : State) (c : Chunk) (p : Nat) : Bool := c.group == 15 || !(s.diesOf c.group c.step p).isEmpty

/-- A child of an own node has a participating die below it: only such a child has sources and recipients (R337, R346). The
members of another dispatch domain are not known here, and such a child counts as having one (assumption row 105). -/
def State.partBelow (s : State) (c : Chunk) (level child : Nat) : Bool :=
  let ms := (s.groupTree c.group c.step).members
  if level = 4 then child != s.dom || ms.any (fun p => s.takesPart c p)
  else ms.any (fun p => below level child p && s.takesPart c p)

/-- The children from which a node awaits contributions, in order (R345, R346): of a sum, those with a participating die. -/
def State.expected (s : State) (c : Chunk) (level : Nat) : List Nat :=
  let t := s.groupTree c.group c.step
  let all := if level = 0 then (if c.group = 15 then [0] else s.diesOf c.group c.step s.self)
    else (s.kids t level).map (·.1)
  if c.sums then (if level = 0 then all else all.filter (fun k => s.partBelow c level k))
  else match s.chunkSource c with
    | none => []
    | some (p, d) =>
      if level = 0 then (if p = s.self then all.filter (· == d) else [])
      else all.filter (fun k => below level k p)

/-- A recipient lies below the child of a level. -/
def State.needsDown (s : State) (c : Chunk) (level child : Nat) : Bool :=
  match s.chunkTarget c with
  | none => s.partBelow c level child
  | some (p, _) => below level child p

/-- A recipient lies below the own node of a level. -/
def State.nodeNeeds (s : State) (c : Chunk) (level : Nat) : Bool :=
  let under := fun (p : Nat) => if level = 0 then p == s.self else if level = 1 then p / 8 == s.self / 8
    else if level = 2 then p / 64 == s.self / 64 else true
  match s.chunkTarget c with
  | none => level == 4 || (s.groupTree c.group c.step).members.any (fun p => under p && s.takesPart c p)
  | some (p, _) => under p

/-- Die d of this package is a recipient. -/
def State.dieGets (s : State) (c : Chunk) (d : Nat) : Bool :=
  match s.chunkTarget c with
  | none => true
  | some x => x == (s.self, d)

/-- The step of a chunk is marked poisoned (R356). -/
def State.markPoison (s : State) (step : Nat) : State :=
  if s.swarm.mark.contains step then s else s.updSwarm (fun w => { w with mark := w.mark ++ [step] })

/-- The chunk is poisoned at this package: counted once (R354). -/
def State.notePoison (s : State) (k : ChunkKey) : State :=
  match s.chunkOf k with
  | none => s
  | some c =>
    if c.poison then s
    else ((s.updChunk k (fun c => { c with poison := true })).inc R.swarmPoisonCnt 1).markPoison k.1

/-! ### Packets (R343) -/

/-- A chunk header toward a package. -/
def State.chunkHdr (s : State) (c : Chunk) (dir dst : Nat) (poison : Bool) : W8 :=
  let g := c.shape
  let len := if poison then 0 else g.len / 16
  ({ w0 := at_ 28 4 ||| at_ 24 g.fmt ||| at_ 22 (b2n poison) ||| at_ 20 (b2n g.block) ||| at_ 0 len
     w1 := at_ 28 g.op ||| at_ 24 c.group ||| at_ 12 c.coll ||| at_ 10 dir
     w2 := at_ 16 c.chunk ||| at_ 0 g.chunks
     w3 := at_ 18 g.root
     w4 := BitVec.ofNat 32 c.step
     w5 := at_ 20 s.cmid ||| at_ 2 (s.epochAt c.step)
     w6 := at_ 20 dst ||| at_ 0 g.elems
     w7 := 0 } : W8).sealed

/-- The chunk that a packet of VC1 carries. -/
def TxPkt.chunkKey (p : TxPkt) : ChunkKey :=
  let h := W8.ofBytes p.bytes
  (fld h.w4 31 0, fld h.w1 27 24, fld h.w1 23 12, fld h.w2 31 16)

/-- A package that is lost gets nothing (R252, R355). -/
def State.seatLost (s : State) (seat : Nat) : Bool := seat / 512 == s.dom && s.isLost (seat % 512)

/-- Send a chunk to a seat: with its cell, or poisoned; the packet holds one reference (R351). -/
def State.sendChunk (s : State) (c : Chunk) (dir seat : Nat) (cell : Option Handle) : State :=
  if s.seatLost seat then
    (match cell with
      | some h => s.release h 0 none
      | none => s)
  else
    let h := s.chunkHdr c dir seat cell.isNone
    let s1 := if cell.isNone then s.markPoison c.step else s
    s1.sendPkt (TxPkt.own 1 seat 1 h.bytes (cell.map (fun x => (x, c.shape.len))) [])

/-! ### Signals and outputs toward the dies (R342) -/

/-- STATUS codes of SWARM_SIGNAL. -/
abbrev sgDone : Nat := 0
abbrev sgPoisoned : Nat := 1
abbrev sgLate : Nat := 2

def State.pushOut (s : State) (o : SwmOut) : State := s.updSwarm (fun w => { w with outs := w.outs ++ [o] })

/-- The counts of R213 of the messages that stay. -/
def keepCounts : List Nat → List Bool → List Nat
  | [], _ => []
  | cs, [] => cs
  | c :: cs, gone :: gs => if gone then keepCounts cs gs else c :: keepCounts cs gs

/-- The messages queued for a die's chunk are withdrawn, and their cells released. -/
def State.purgeOuts (s : State) (k : ChunkKey) (d : Nat) : State :=
  let mine := fun (o : SwmOut) => o.key == k && o.die == d
  let gone := s.swarm.outs.filter mine
  let flags := (s.swarm.outs.filter (fun o => o.die == d)).map mine
  let s1 := (s.updSwarm (fun w => { w with outs := w.outs.filter (fun o => !mine o) })).updDie d
    (fun p => { p with passed := updAt p.passed 0 (keepCounts · flags) })
  gone.foldl (fun s o => match o.cell with
    | some h => s.release h 0 none
    | none => s) s1

/-- LATE_POISON is reported in the Ask of the chunk's step (A2), where that is still to be written. -/
def State.noteLate (s : State) (step : Nat) : State :=
  if s.swarm.late.contains step then s else s.updSwarm (fun w => { w with late := w.late ++ [step] })

/-- A poisoned end of the chunk for one die. -/
def State.poisonDie (s : State) (c : Chunk) (d : Nat) : State :=
  if c.good.contains d then
    (s.pushOut ⟨d, c.key, c.shape, none, sgLate⟩).noteLate c.step
  else if c.told.contains d then s
  else (s.purgeOuts c.key d).pushOut ⟨d, c.key, c.shape, none, sgPoisoned⟩

/-- A good end of the chunk for one die: its output, when it is a recipient, and its signal. -/
def State.goodDie (s : State) (c : Chunk) (cell : Option Handle) (d : Nat) : State :=
  let s1 := match cell with
    | some h => if s.dieGets c d then s.pushOut ⟨d, c.key, c.shape, some h, sgDone⟩ else s
    | none => s
  s1.pushOut ⟨d, c.key, c.shape, none, sgDone⟩

/-! ### The down path (R346, R354) -/

/-- The Keepers take the result of group 15 (R336). -/
def State.keeperGets (s : State) (c : Chunk) (h : Handle) : State :=
  match s.useHandle h c.shape.len .keeper 0 none with
  | (false, s1) => s1
  | (true, s1) =>
    let l := unpackCodes 32 c.shape.elems (s1.payload h c.shape.len)
    (s1.postPay .keeper 0 false h 0 c.shape.len).updSwarm (fun w => { w with keeper := w.keeper ++ [(c.chunk, l)] })

/-- A node has its result: it serves its own children; `n` counts the references its cell needs below. -/
def State.downRefs (s : State) (c : Chunk) (level : Nat) : Nat :=
  let t := s.groupTree c.group c.step
  if level = 0 then (if c.group = 15 then 0 else ((s.diesOf c.group c.step s.self).filter (fun d => s.dieGets c d)).length)
  else ((s.kids t level).filter (fun k => s.needsDown c level k.1 && k.2 != s.cmid)).length

/-- Serve the children of one node with a good result. -/
def State.serveGood (s : State) (c : Chunk) (level : Nat) (cell : Handle) : State :=
  if level = 0 then
    if c.group = 15 then s.keeperGets c cell
    else (s.diesOf c.group c.step s.self).foldl (fun s d => s.goodDie c (some cell) d) s
  else
    ((s.kids (s.groupTree c.group c.step) level).filter (fun k => s.needsDown c level k.1 && k.2 != s.cmid)).foldl
      (fun s k => s.sendChunk c 1 k.2 (some cell)) s

/-- The packet is an own one with the chunk's result for a seat below, and none of it has left. -/
def TxPkt.serves (p : TxPkt) (k : ChunkKey) (seat : Nat) : Bool :=
  p.relay.isNone && p.vc == 1 && p.sent == 0 && p.dst == seat && p.chunkKey == k && fld (W8.ofBytes p.bytes).w1 11 10 == 1

/-- A result that has not begun to leave for a seat is withdrawn: whether there was one, which says that the seat is not yet served. -/
def State.withdraw (s : State) (k : ChunkKey) (seat : Nat) : Bool × State :=
  let gone := s.links.flatMap (fun l => (l.tx.q.getD 1 []).filter (·.serves k seat)) ++ s.limbo.filter (·.serves k seat)
  let s1 := { s with
    links := s.links.map (fun (l : Link) => { l with tx := { l.tx with q := updAt l.tx.q 1 (·.filter (fun p => !p.serves k seat)) } })
    limbo := s.limbo.filter (fun p => !p.serves k seat) }
  (!gone.isEmpty, gone.foldl State.dropPkt s1)

/-- A child gets a poisoned result, in place of a good one that has not left: every child, or only one not yet served (R354 rules 2
to 4). -/
def State.poisonSeat (s : State) (c : Chunk) (all : Bool) (seat : Nat) : State :=
  let (waits, s1) := s.withdraw c.key seat
  if all || waits then s1.sendChunk c 1 seat none else s1

/-- Serve the children of one node with a poisoned result: all of them, or those not yet served. A die tells by itself (R342). -/
def State.servePoison (s : State) (c : Chunk) (level : Nat) (all : Bool) : State :=
  if level = 0 then
    -- the Keepers abandon the running revision (R356)
    if c.group = 15 then
      { s with roster := { s.roster with rev := s.roster.rev.map (fun r => { r with late := true }) } }
    else (s.diesOf c.group c.step s.self).foldl (fun s d => s.poisonDie c d) s
  else
    ((s.kids (s.groupTree c.group c.step) level).filter (fun k => s.needsDown c level k.1 && k.2 != s.cmid)).foldl
      (fun s k => s.poisonSeat c all k.2) s

/-- The own levels at and below a level, joined on this package, that its result reaches, highest first. -/
def State.chainDown (s : State) (c : Chunk) (level : Nat) : List Nat :=
  let t := s.groupTree c.group c.step
  (List.range (level + 1)).reverse.takeWhile (fun k => k == level || (s.ownLevels t).contains k)

/-- A good result reaches the own node of a level; the cell's own reference is given up at the end (R351). -/
def State.resultGood (s : State) (k : ChunkKey) (level : Nat) (cell : Handle) : State :=
  match s.chunkOf k with
  | none => s.release cell 0 none
  | some c =>
    let ls := (s.chainDown c level).filter (fun v => s.nodeNeeds c v)
    let n := sumNat (ls.map (fun v => s.downRefs c v))
    let s1 := (s.addRef cell n 0).2
    let s2 := ls.foldl (fun s v => (s.updNode k v (fun x => { x with res := 1, done := true })).serveGood c v cell) s1
    s2.release cell 0 none

/-- Contributions that a poisoned or finished node still holds are released (R351). -/
def State.dropHeld (s : State) (x : SwmNode) : State :=
  x.held.foldl (fun s i => match i.cell with
    | some h => s.release h 0 none
    | none => s) s

/-- A node ends: what it still holds is released, and nothing goes up any more. -/
def State.endNode (s : State) (k : ChunkKey) (level res : Nat) : State :=
  match (s.chunkOf k).bind (fun c => c.node level) with
  | none => s
  | some x => (s.dropHeld x).updNode k level (fun y => { y with held := [], done := true, res := max y.res res })

/-- A poisoned result reaches the own node of a level (R354 rules 2, 4 and 5), or the node makes one itself (rule 3): it goes to
every child, in rule 3 to the children not yet served, which are all of a node that has served none. -/
def State.resultPoison (s : State) (k : ChunkKey) (level : Nat) (whole : Bool) : State :=
  match s.chunkOf k with
  | none => s
  | some c =>
    match c.node level with
    | none => s
    | some x =>
      if x.res = 2 then s
      else
        let ls := (s.chainDown c level).filter (fun v => s.nodeNeeds c v)
        ls.foldl (fun s v => (s.endNode k v 2).servePoison c v (whole || (c.node v).all (·.res == 0))) (s.notePoison k)

/-- A package whose dies receive nothing of the chunk tells them of its end once its part is done, at every node that sits here
(R342). -/
def State.tellDies (s : State) (k : ChunkKey) : State :=
  match s.chunkOf k with
  | none => s
  | some c =>
    match c.node 0 with
    | none => s
    | some x =>
      let ended := c.nodes.all (fun y => y.done && (y.res != 0 || !s.nodeNeeds c y.level))
      if ended && x.res == 0 && !s.nodeNeeds c 0 && c.group != 15 then
        (s.diesOf c.group c.step s.self).foldl (fun t d => if c.poison then t.poisonDie c d else t.goodDie c none d)
          (s.updNode k 0 (fun y => { y with res := if c.poison then 2 else 1 }))
      else s

/-! ### The up path (R346 to R349) -/

def isFloatFmt (f : Nat) : Bool := decide (f ≤ 7)

/-- A child's values: binary32 codes, or integers modulo 2^64. -/
def swmValues (fmt elems : Nat) (bs : List Byte) : List Nat :=
  let cs := unpackCodes (fmtBits fmt) elems bs
  if isFloatFmt fmt then cs.map (fun x => rne32 (fmtDecode fmt x))
  else if fmt = 0xE then cs.map (fun x => unsigned 64 (signed 24 x))
  else cs

/-- One addition at a node (R347). -/
def swmAdd (fmt : Nat) (acc v : List Nat) : List Nat :=
  (acc.zip v).map (fun p => if isFloatFmt fmt then add32 p.1 p.2
    else if fmt = 0xE then (p.1 + p.2) % 2 ^ 64 else (p.1 + p.2) % 2 ^ 32)

/-- The output of a sum: its bytes, and how many elements were saturated or clamped. -/
def swmOut (fmt : Nat) (acc : List Nat) : List Byte × Nat :=
  if isFloatFmt fmt then
    let r := acc.map (fun x => fmtEncode fmt true (dec32 x))
    (padded16 (packCodes (fmtBits fmt) (r.map (·.1))), sumNat (r.map (·.2.sat)))
  else if fmt = 0xE then
    let vs := acc.map (fun x => signed 64 x)
    let lo : Int := -8388608
    let hi : Int := 8388607
    (padded16 (packCodes 24 (vs.map (fun v => unsigned 24 (min (max v lo) hi)))),
      (vs.filter (fun v => decide (v < lo) || decide (hi < v))).length)
  else (padded16 (packCodes (fmtBits fmt) acc), 0)

/-- The contribution that a node adds next: the next child in order, or the first to arrive (R347, R348). -/
def State.nextIn (s : State) (c : Chunk) (x : SwmNode) : Option SwmIn :=
  if s.step.ordered || c.group == 15 then
    match (s.expected c x.level).find? (fun k => !x.added.contains k) with
    | some k => x.held.find? (fun i => i.child == k)
    | none => none
  else x.held.head?

/-- Add contributions as far as the mode lets the node. -/
def State.addNode (s : State) (k : ChunkKey) (level : Nat) : Nat → State
  | 0 => s
  | fuel + 1 =>
    match s.chunkOf k with
    | none => s
    | some c => match c.node level with
      | none => s
      | some x => match s.nextIn c x with
        | none => s
        | some i => match i.cell with
          | none => s
          | some h =>
            match s.useHandle h c.shape.len .swarm 0 none with
            | (false, s1) => s1
            | (true, s1) =>
              let v := swmValues c.shape.fmt c.shape.elems (s1.payload h c.shape.len)
              let s2 := (s1.postPay .swarm 0 false h 0 c.shape.len).updNode k level (fun y =>
                { y with held := y.held.filter (fun j => j.child != i.child), added := y.added ++ [i.child]
                         acc := some (swmAdd c.shape.fmt (y.acc.getD (List.replicate c.shape.elems 0)) v) })
              (s2.release h 0 none).addNode k level fuel

/-- A node's output goes to its parent, or is the result when the node is the root. -/
def State.nodeOut (s : State) (k : ChunkKey) (level : Nat) (cell : Option Handle) : State :=
  match s.chunkOf k with
  | none => s
  | some c =>
    let t := s.groupTree c.group c.step
    let s1 := s.updNode k level (fun x => { x with done := true, held := [] })
    if t.scope ≤ level then
      (match cell with
        | some h => s1.resultGood k level h
        | none => s1.resultPoison k level true)
    else
      let up := s.seat t (level + 1) s.self
      if up = s.cmid then
        (if ((s1.chunkOf k).bind (fun c => c.node (level + 1))).any (·.done) then
          (match cell with
            | some h => s1.release h 0 none
            | none => s1)
        else s1.updNode k (level + 1) (fun x =>
          { x with got := x.got ++ [s.ownChild level], held := x.held ++ [⟨s.ownChild level, cell.isNone, cell⟩] }))
      else if s.seatLost up then (match cell with
        | some h => s1.release h 0 none
        | none => s1).resultPoison k level true
      else s1.sendChunk c 0 up cell

/-- R349: the node must not add yet. -/
def State.mustDefer (s : State) (c : Chunk) : Bool := c.sums && c.group != 15 && c.step == seqAdd s.curSeq 1

/-- The work of the own node of one level. -/
def State.workNode (s : State) (k : ChunkKey) (level : Nat) : State :=
  match s.chunkOf k with
  | none => s
  | some c => match c.node level with
    | none => s
    | some x =>
      if x.done then s
      else if x.held.any (·.poison) then ((s.notePoison k).dropHeld x).nodeOut k level none
      else if c.sums then
        if s.mustDefer c then s
        else
          let s1 := s.addNode k level (x.held.length + 1)
          match (s1.chunkOf k).bind (fun c => c.node level) with
          | none => s1
          | some y =>
            if (s1.expected c level).isEmpty || !(s1.expected c level).all (fun j => y.added.contains j) then s1
            else match s1.allocP4 1 (.swmPort 4) with
              | (none, s2) => s2
              | (some h, s2) =>
                let out := swmOut c.shape.fmt (y.acc.getD [])
                (((s2.postPay .swarm 0 true h 0 out.1.length).writePay h 0 out.1).inc R.swarmSatCnt out.2).nodeOut k level (some h)
      else match x.held with
        | [] => s
        | i :: _ => s.nodeOut k level i.cell

/-- The chunk's work on this package, lowest node first. -/
def State.workChunk (s : State) (k : ChunkKey) : State :=
  (([0, 1, 2, 3, 4] : List Nat).foldl (fun s v => s.workNode k v) s).tellDies k

/-! ### Finality and status (R352, R354) -/

/-- A packet of the chunk still waits for its last flit. -/
def State.chunkQueued (s : State) (k : ChunkKey) : Bool :=
  let mine := fun (p : TxPkt) => p.relay.isNone && p.vc == 1 && p.chunkKey == k
  s.links.any (fun l => (l.tx.q.getD 1 []).any mine) || s.limbo.any mine

/-- Every recipient of the package's nodes has been served. -/
def State.chunkServed (s : State) (c : Chunk) : Bool :=
  c.nodes.all (fun x => x.done && (x.res != 0 || !s.nodeNeeds c x.level)) &&
    s.swarm.outs.all (fun o => o.key != c.key) && !s.chunkQueued c.key

/-- A node of the chunk is adding (a sum of it is begun and not out) or forwarding (a message of it has not left). What of
this counts as BUSY is the model's choice (assumption row 105). -/
def State.chunkBusy (s : State) (c : Chunk) : Bool :=
  c.nodes.any (fun x => !x.done && !x.added.isEmpty) || s.swarm.outs.any (fun o => o.key == c.key) || s.chunkQueued c.key

/-- SWARM_STATUS. -/
def State.swarmStatus (s : State) : State :=
  let live := s.swarm.chunks.filter (fun c => !c.final)
  ((s.put F.swarmStatusOpen live.length).put F.swarmStatusBusy (b2n (live.any s.chunkBusy))).put F.swarmStatusDefer
    (b2n (live.any s.mustDefer))

/-- Chunks that have become final are counted, and the deferred ones (R349) once each. -/
def State.swarmSettle (s : State) : State :=
  let s1 := s.swarm.chunks.foldl (fun s c =>
    let s1 := if !c.final && s.chunkServed c then
        (s.updChunk c.key (fun x => { x with final := true })).inc R.swarmChunkCnt 1 else s
    if !c.deferred && s1.mustDefer c then (s1.updChunk c.key (fun x => { x with deferred := true })).inc R.swarmDeferCnt 1
    else s1) s
  s1.swarmStatus

/-! ### Opening (R352, R355) -/

/-- R355 for one chunk: what depends on a lost package is poisoned. -/
def State.lossChunk (s : State) (k : ChunkKey) : State :=
  (([0, 1, 2, 3, 4] : List Nat).foldl (fun s v =>
    match s.chunkOf k with
    | none => s
    | some c => match c.node v with
      | none => s
      | some x =>
        let t := s.groupTree c.group c.step
        let kidLost := !x.done && (s.kids t v).any (fun q =>
          s.seatLost q.2 && (s.expected c v).contains q.1 && !x.got.contains q.1)
        let s1 := if kidLost then ((s.notePoison k).dropHeld x).nodeOut k v none else s
        let y := ((s1.chunkOf k).bind (fun c => c.node v)).getD x
        let up := s1.seat t (v + 1) s1.self
        if v < t.scope && up != s1.cmid && s1.seatLost up && y.res == 0 then
          (s1.endNode k v 0).resultPoison k v true
        else s1) s).tellDies k

def State.openCount (s : State) : Nat := (s.swarm.chunks.filter (fun c => !c.final)).length

/-- SWARM_CTL.WIN in force. -/
def State.swarmWin (s : State) : Nat := max 1 (s.eff F.swarmCtlWin)

/-- The chunk before this one of its group and step has been opened: the one before it in its collective, or the last of
the collective before. A package without participating dies does not take part in every chunk (assumption row 105). -/
def State.chunkTurn (s : State) (k : ChunkKey) : Bool :=
  let (x, g, coll, c) := k
  if g ≠ 15 ∧ (s.diesOf g x s.self).isEmpty then true
  else if 0 < c then (s.chunkOf (x, g, coll, c - 1)).isSome
  else coll == 0 || s.swarm.chunks.any (fun d => d.step == x && d.group == g && d.coll + 1 == coll && d.chunk + 1 == d.shape.chunks)

/-- A chunk opens. A node with no child to await has nothing to produce. -/
def State.newChunk (s : State) (k : ChunkKey) (g : ChunkShape) : State :=
  let levels := s.ownLevels (s.groupTree k.2.1 k.1)
  let c : Chunk :=
    { step := k.1, group := k.2.1, coll := k.2.2.1, chunk := k.2.2.2, shape := g
      nodes := levels.map (fun v => { level := v, held := [], got := [], added := [], acc := none, done := false, res := 0 })
      poison := false, good := [], told := [], deferred := false, final := false }
  let s1 := s.updSwarm (fun w => { w with chunks := w.chunks ++ [c] })
  let s2 := levels.foldl (fun s v => if (s.expected c v).isEmpty then
    s.updNode k v (fun x => { x with done := true }) else s) s1
  s2.lossChunk k

/-! ### Poison from a bad packet (R353) -/

/-- The chunk still awaits a contribution or a result over a link. -/
def State.awaitsLink (s : State) (c : Chunk) : Bool :=
  let t := s.groupTree c.group c.step
  c.nodes.any (fun x =>
    (!x.done && (s.kids t x.level).any (fun q => q.2 != s.cmid && (s.expected c x.level).contains q.1 && !x.got.contains q.1)) ||
    (x.res == 0 && decide (x.level < t.scope) && s.seat t (x.level + 1) s.self != s.cmid && s.nodeNeeds c x.level))

/-- A NOTICE toward the root from the own node of a level (R354 rule 3). -/
def State.sendNotice (s : State) (c : Chunk) (level : Nat) : State :=
  let t := s.groupTree c.group c.step
  let top := (s.ownLevels t).foldl max level
  if t.scope ≤ top then s
  else s.sendChunk c 2 (s.seat t (top + 1) s.self) none

/-- A node of the package detects poison of a chunk: its output is poisoned, and where the chunk's result is on its way down
a NOTICE goes up and its children not yet served get a poisoned result (R354 rules 1 and 3); at the root all of them do (rule 4). -/
def State.detectPoison (s : State) (k : ChunkKey) : State :=
  let done0 := fun (v : Nat) => ((s.chunkOf k).bind (fun c => c.node v)).any (·.done)
  let s1 := ([0, 1, 2, 3, 4] : List Nat).foldl (fun s v =>
    match (s.chunkOf k).bind (fun c => c.node v) with
    | none => s
    | some x => if x.done then s else (s.dropHeld x).nodeOut k v none) (s.notePoison k)
  match s1.chunkOf k with
  | none => s1
  | some c =>
    let t := s1.groupTree c.group c.step
    -- nodes whose own output had already gone up in good form
    let late := c.nodes.filter (fun x => x.res != 2 && done0 x.level && s1.nodeNeeds c x.level &&
      (decide (t.scope ≤ x.level) || s1.seat t (x.level + 1) s1.self != s1.cmid))
    let root := decide (t.scope ≤ (s1.ownLevels t).foldl max 0)
    (late.foldl (fun s x => (s.sendNotice c x.level).resultPoison k x.level root) s1).tellDies k

/-- A header that fails on VC1 poisons every open chunk that awaits something over a link (R353), one that is poisoned already and
awaits its result among them. -/
def State.poisonLinks (s : State) : State :=
  (s.swarm.chunks.filter (fun c => !c.final && s.awaitsLink c)).foldl (fun s c => s.detectPoison c.key) s

/-- A discarded SWARM_IN poisons every open chunk that awaits die port a. -/
def State.poisonPort (s : State) (a : Nat) : State :=
  (s.swarm.chunks.filter (fun c => !c.final && (match c.node 0 with
    | some x => !x.done && (s.expected c 0).contains a && !x.got.contains a
    | none => false))).foldl (fun s c => s.detectPoison c.key) s

end Sys2Proof.Machine
end

