-- ==== Sys2Proof/Machine/SwarmIo.lean ====
section
/-! DEFINITION. Machine/SwarmIo.lean: Swarm traffic at the die ports and on VC1 (R341 to R344, R351 to R354). -/

namespace Sys2Proof.Machine

/-! ### SWARM_IN (R341) -/

/-- The chunk that a die-port Swarm header names. -/
def swmKey (h : W8) : ChunkKey := (W8.dseq h, fld h.w2 27 24, fld h.w2 23 12, fld h.w3 31 16)

def swmShape (h : W8) : ChunkShape :=
  { op := fld h.w2 31 28, fmt := W8.dfmt h, block := W8.dblock h, chunks := fld h.w3 15 0, elems := fld h.w6 19 0,
    len := 16 * W8.dlen h, root := if fld h.w2 31 28 = 4 then fld h.w5 31 18 else 0 }

/-- R338. -/
def swmFmtOk (g : ChunkShape) : Bool :=
  if g.op ≤ 2 then (g.fmt == 0 || g.fmt == 1 || g.fmt == 2 || g.fmt == 8 || g.fmt == 0xE) && !g.block
  else !(g.fmt == 0xB || g.fmt == 0xD || g.fmt == 0xE || g.fmt == 0xF)

/-- R339: the chunk's length against its group's chunk size, and its element count. -/
def swmLenOk (g : ChunkShape) (size c : Nat) : Bool :=
  (if c + 1 = g.chunks then decide (16 ≤ g.len ∧ g.len ≤ size) else g.len == size) &&
    payloadBytes g.fmt g.block g.elems == g.len

/-- A step that a Swarm chunk may name: the current or the next (R341). During a partition reset there is none, since nothing begins
a chunk (R468). -/
def State.swmStepOk (s : State) (x : Nat) : Bool := s.stepping && !s.flag F.rasStatusPartBusy && (x == s.curSeq || x == seqAdd s.curSeq 1)

/-- Die a may source the chunk (R337). -/
def State.swmSourceOk (s : State) (a : Nat) (k : ChunkKey) (g : ChunkShape) : Bool :=
  (s.diesOf k.2.1 k.1 s.self).contains a &&
    (if g.op = 3 then s.chunkRank k.2.1 k.1 k.2.2.2 == some (s.self, a)
     else if g.op = 4 then s.rankAt k.2.1 k.1 g.root == some (s.self, a) else true)

/-- A chunk already open agrees with a contribution, and die a has not sent it before. -/
def State.swmAgrees (s : State) (a : Nat) (k : ChunkKey) (g : ChunkShape) : Bool :=
  match s.chunkOf k with
  | none => true
  | some c => (c.shape == g || (c.shape.len == 0 && c.shape == { g with len := 0 })) && (match c.node 0 with
    | some x => !x.got.contains a
    | none => true)

/-- R341. -/
def State.swmInOk (s : State) (a : Nat) (h : W8) : Bool :=
  let k := swmKey h
  let g := swmShape h
  decide (1 ≤ g.op ∧ g.op ≤ 4) && decide (k.2.1 < 15) && s.swmStepOk k.1 && swmFmtOk g && decide (k.2.2.2 < g.chunks) &&
    s.swmSourceOk a k g && (s.groupScope k.2.1 k.1 != 4 || g.op == 1) && swmLenOk g (s.groupChunk k.2.1 k.1) k.2.2.2 &&
    s.swmAgrees a k g

/-- A contribution reaches the package node. -/
def State.contribute (s : State) (k : ChunkKey) (child : Nat) (cell : Option Handle) : State :=
  match (s.chunkOf k).bind (fun c => c.node 0) with
  | none => s
  | some x =>
    if x.done then (match cell with
      | some h => s.release h 0 none
      | none => s).updNode k 0 (fun y => { y with got := y.got ++ [child] })
    else
      (s.updNode k 0 (fun y => { y with got := y.got ++ [child], held := y.held ++ [⟨child, cell.isNone, cell⟩] })).workChunk k

/-! ### VC1 (R343, R344) -/

def W8.sop (h : W8) : Nat := fld h.w1 31 28
def W8.sgroup (h : W8) : Nat := fld h.w1 27 24
def W8.scoll (h : W8) : Nat := fld h.w1 23 12
def W8.sdir (h : W8) : Nat := fld h.w1 11 10
def W8.ssrc (h : W8) : Nat := fld h.w5 31 20
def W8.sdst (h : W8) : Nat := fld h.w6 31 20
def W8.sepoch (h : W8) : Nat := fld h.w5 17 2

def hdrKey (h : W8) : ChunkKey := (W8.tseq h, W8.sgroup h, W8.scoll h, fld h.w2 31 16)

def hdrShape (h : W8) : ChunkShape :=
  { op := W8.sop h, fmt := W8.tfmt h, block := W8.tblock h, chunks := fld h.w2 15 0, elems := fld h.w6 19 0,
    len := 16 * W8.tlen h, root := fld h.w3 31 18 }

/-- The source is a member under the own membership (R344). -/
def State.swmMember (s : State) (t : TreeDesc) (x src : Nat) : Bool :=
  if src / 512 = s.dom then (s.membersAt x).contains (src % 512) && t.members.contains (src % 512)
  else t.scope == 4 && t.doms.contains (src / 512) && src % 512 == t.rep

/-- The own node that a packet from a seat reaches: upward, its child's name; downward or a NOTICE, the level alone. -/
def State.upTarget (s : State) (t : TreeDesc) (src : Nat) : Option (Nat × Nat) :=
  ((s.ownLevels t).filter (fun v => v != 0)).findSome? (fun v =>
    ((s.kids t v).find? (fun q => q.2 == src && q.2 != s.cmid)).map (fun q => (v, q.1)))

def State.downTarget (s : State) (t : TreeDesc) (src : Nat) : Option Nat :=
  (s.ownLevels t).reverse.find? (fun v => decide (v < t.scope) && s.seat t (v + 1) s.self == src && src != s.cmid)

/-- The shape agrees with an open chunk's; a poisoned packet carries no payload. -/
def State.hdrAgrees (s : State) (h : W8) : Bool :=
  match s.chunkOf (hdrKey h) with
  | none => true
  | some c =>
    let g := hdrShape h
    c.shape == (if W8.tpoison h || c.shape.len == 0 then { g with len := c.shape.len } else g)

/-- R344 for a chunk header; the step is looked at afterwards. -/
def State.chunkHdrOk (s : State) (p : RxPkt) : Bool :=
  let h := p.hdr 0
  let t := s.groupTree (W8.sgroup h) (W8.tseq h)
  let g := hdrShape h
  p.hdrsIn && p.nhdr == 1 && p.lenFits && h.ok && W8.ttype h == 4 && decide (1 ≤ g.op ∧ g.op ≤ 4) && decide (W8.sdir h ≤ 2) &&
    W8.sdst h == s.cmid && decide (fld h.w2 31 16 < g.chunks) && swmFmtOk g && (t.scope != 4 || g.op == 1) &&
    s.swmMember t (W8.tseq h) (W8.ssrc h) &&
    (W8.ssrc h / 512 != s.dom || W8.sepoch h == s.epochAt (W8.tseq h)) && s.hdrAgrees h &&
    (W8.tpoison h || swmLenOk g (s.groupChunk (W8.sgroup h) (W8.tseq h)) (fld h.w2 31 16)) &&
    (if W8.sdir h = 0 || W8.sdir h = 2 then (s.upTarget t (W8.ssrc h)).isSome else (s.downTarget t (W8.ssrc h)).isSome)

/-! ### Opening chunks in order (R352) -/

/-- The Keepers contribute to group 15 now (R240 step 3): in the step after the window's start, with their snapshot, or late. -/
def State.revTurn (s : State) (r : Rev) : Bool :=
  s.keepersOn && s.member && s.step.inProg && s.stepSeq == seqAdd r.sw 1 && (r.late || r.snap.isSome)

/-- Experts of every layer in order, as (layer, expert). -/
def State.routedExperts (s : State) : List (Nat × Nat) :=
  (List.range s.modelLayers).flatMap (fun l => (List.range (s.layerN l)).map (fun e => (l, e)))

/-- Elements of one chunk of group 15. -/
def keeperElems : Nat := 16384

/-- The chunk of a contribution that waits has not opened. -/
def State.unopened (s : State) (x : Nat) (k : ChunkKey) : Bool := k.1 == x && (s.chunkOf k).isNone

/-- A contribution to a chunk of step x waits here for the chunk to open: at a die port, on VC1 or from the Keepers. -/
def State.stepWaits (s : State) (x : Nat) : Bool :=
  (List.range s.nRegions).any (fun a => match (s.port a).swm with
    | m :: _ => s.unopened x (swmKey m.h) && (m.checked || m.h.ok) && s.swmInOk a m.h
    | [] => false) ||
  (List.range s.nLinks).any (fun n => (s.rxq n 1).any (fun p =>
    p.relay.isNone && p.taken.isNone && s.unopened x (hdrKey (p.hdr 0)) && s.chunkHdrOk p && W8.sdir (p.hdr 0) != 2)) ||
  (s.stepSeq == x && (match s.roster.rev with
    | some r => s.revTurn r && (List.range (ceilDiv s.routedExperts.length keeperElems)).any (fun c => s.unopened x (x, 15, 0, c))
    | none => false))

/-- The chunk comes from a collective that the programs of die port a issued after one of another group whose chunk has still to
open: that chunk's contribution waits in the port's staging ahead of one of the chunk's own collective, or of one before it (R340). -/
def State.issuedAfter (s : State) (a : Nat) (k : ChunkKey) : Bool :=
  let ms := (s.port a).swm
  (List.range ms.length).any (fun i => match ms[i]? with
    | some m =>
      let j := swmKey m.h
      s.unopened k.1 j && j.2.1 != k.2.1 && (m.checked || m.h.ok) && s.swmInOk a m.h &&
        (ms.drop (i + 1)).any (fun x => (swmKey x.h).1 == k.1 && (swmKey x.h).2.1 == k.2.1 && decide ((swmKey x.h).2.2.1 ≤ k.2.2.1))
    | none => false)

/-- The chunks of step x whose collective has begun here and not yet opened its last chunk. The Keepers' group has no place in the
order of the programs, and a package without participating dies does not take part in every chunk. -/
def State.begun (s : State) (x : Nat) : List Chunk :=
  s.swarm.chunks.filter (fun c => c.step == x && c.group != 15 && !(s.diesOf c.group x s.self).isEmpty &&
    s.unopened x (x, c.group, c.coll, c.shape.chunks - 1))

/-- Die a is the source of a chunk of the collective that has still to open. -/
def State.owes (s : State) (a : Nat) (c : Chunk) : Bool :=
  (List.range c.shape.chunks).any (fun i =>
    s.unopened c.step (c.step, c.group, c.coll, i) && s.swmSourceOk a (c.step, c.group, c.coll, i) c.shape)

/-- A die port shows that the collective of a chunk comes before what has still to come of a begun one: a contribution to it stands
in the staging, and the die has still to contribute to the other (R340). -/
def State.issuedBefore (s : State) (k : ChunkKey) (c : Chunk) : Bool :=
  (List.range s.nRegions).any (fun a =>
    (s.port a).swm.any (fun m => let j := swmKey m.h; j.1 == k.1 && j.2.1 == k.2.1 && j.2.2.1 == k.2.2.1) && s.owes a c)

/-- What is begun goes first: no chunk of the next step opens while a collective of this one has chunks to open, and none of another
group of its step, but where a die port shows that it comes first (R352, assumption row 105). -/
def State.afterBegun (s : State) (k : ChunkKey) : Bool :=
  (k.1 != seqAdd s.curSeq 1 || (!s.stepWaits s.curSeq && (s.begun s.curSeq).isEmpty)) &&
    (s.begun k.1).all (fun c => k.2.1 == 15 || c.group == k.2.1 || s.issuedBefore k c)

/-- The chunk can open: the window has room, it is its turn, no chunk of another group that the die ports show to come before it has
still to open, and what is begun has opened (R352, assumption row 105). -/
def State.canOpen (s : State) (k : ChunkKey) : Bool :=
  decide (s.openCount < s.swarmWin) && s.chunkTurn k && !(List.range s.nRegions).any (fun a => s.issuedAfter a k) && s.afterBegun k

/-- Open a chunk, if it can open. -/
def State.openChunk (s : State) (k : ChunkKey) (g : ChunkShape) : Option State := if s.canOpen k then some (s.newChunk k g) else none

/-- The chunk is open, or the window lets it open. -/
def State.ensureChunk (s : State) (k : ChunkKey) (g : ChunkShape) : Option State :=
  if (s.chunkOf k).isSome then some s else s.openChunk k g

/-! ### Contributions from the dies -/

/-- The words of a SWARM_IN in staging are checked as they are read: true when one is uncorrectable (R353). -/
def State.stageRead (s : State) (a : Nat) : Bool × State :=
  let (ce, s1) := s.meet (.swmStage a false)
  let (ue, s2) := (if ce then s1.inc R.swarmCeCnt 1 else s1).meet (.swmStage a true)
  (ue, if ue then s2.inc R.swarmUeCnt 1 else s2)

/-- SWARM_INs leave staging in order: a contribution moves into its P4 cell (R351). -/
def State.pumpSwm (s : State) (a : Nat) : Nat → State
  | 0 => s
  | fuel + 1 =>
    match (s.port a).swm with
    | [] => s
    | m :: _ =>
      let k := swmKey m.h
      let g := swmShape m.h
      if !m.checked && !(m.h.ok && W8.msg m.h == 6) then ((s.dropStaged a 2).poisonPort a).pumpSwm a fuel
      else if !s.swmInOk a m.h then ((s.dropStaged a 2).poisonPort a).pumpSwm a fuel
      else if (s.chunkOf k).any (·.final) then ((s.unstage a 2).inc R.swarmLateCnt 1).pumpSwm a fuel
      else match s.ensureChunk k g with
        | none => s
        | some t =>
          let (ue, s0) := t.stageRead a
          if W8.dpoison m.h || ue then (((s0.notePoison k).unstage a 2).contribute k a none).pumpSwm a fuel
          else match s0.allocP4 1 (.swmPort a) with
            | (none, s1) => s1
            | (some cell, s1) =>
              ((((s1.postPay .dieRx a true cell 0 m.body.length).writePay cell 0 m.body).unstage a 2).contribute k a (some cell)).pumpSwm a fuel

/-- SWARM_IN arrives on die port a. -/
def State.swarmIn (s : State) (a : Nat) (h : W8) (body : List Byte) : State :=
  if s.awake && !(h.ok && W8.msg h == 6) then (s.dieBad a (some 2) (16 * W8.dlen h)).poisonPort a
  else
    let s1 := s.stage a 2 h body s.awake
    if s1.awake then (s1.pumpSwm a ((s1.port a).swm.length + 1)).swarmSettle else s1

/-! ### Packets of VC1 -/

/-- Packet i leaves: what has still to come of it is discarded, and a cell that it has taken is released. -/
def State.chunkDrop (s : State) (n i : Nat) (p : RxPkt) : State :=
  (match p.taken with
    | some (some h, _) => s.release h (n / 2) none
    | _ => s).rxDiscard n 1 i

/-- A Swarm packet that fails (R344, R353). -/
def State.swmHdrBad (s : State) (n i : Nat) (p : RxPkt) : State :=
  ((s.chunkDrop n i p).inc R.swarmHdrErrCnt 1).poisonLinks

/-- A chunk packet that waits: its chunk cannot open yet (R352). -/
def State.chunkWaits (s : State) (p : RxPkt) : Bool :=
  let k := hdrKey (p.hdr 0)
  s.chunkHdrOk p && W8.sdir (p.hdr 0) != 2 && (k.1 == s.curSeq || k.1 == seqAdd s.curSeq 1) && (s.chunkOf k).isNone &&
    !s.canOpen k

/-- Something can be done with a packet of VC1: it is whole, or it can be judged and its payload has no cell yet (R269). -/
def RxPkt.swmReady (p : RxPkt) : Bool := p.relay.isNone && (p.whole || (p.judged && p.taken.isNone))

/-- The oldest packet of VC1 of link n that is for this package, can be worked on and need not wait for its chunk to open: a later
packet may be of the chunk that must open first (assumption row 105). -/
def State.swmHead (s : State) (n : Nat) : Option (Nat × RxPkt) :=
  ((s.rxq n 1).zipIdx.find? (fun q => q.1.swmReady && !s.chunkWaits q.1)).map (fun q => (q.2, q.1))

/-- A contribution from a child over a link. -/
def State.upIn (s : State) (k : ChunkKey) (level child : Nat) (cell : Option Handle) : State :=
  match (s.chunkOf k).bind (fun c => c.node level) with
  | none => s
  | some x =>
    if x.done || x.got.contains child then (match cell with
      | some h => s.release h 0 none
      | none => s)
    else (s.updNode k level (fun y =>
      { y with got := y.got ++ [child], held := y.held ++ [⟨child, cell.isNone, cell⟩] })).workChunk k

/-- A result from the parent over a link. -/
def State.downIn (s : State) (k : ChunkKey) (level : Nat) (poison pab : Bool) (cell : Option Handle) : State :=
  (if pab then
    (if ((s.chunkOf k).bind (fun c => c.node level)).any (fun x => x.res == 0) then s.detectPoison k else s)
  else if poison then s.resultPoison k level true
  else match cell with
    | none => s
    | some h => match (s.chunkOf k).bind (fun c => c.node level) with
      | some x => if x.res = 0 then s.resultGood k level h else s.release h 0 none
      | none => s.release h 0 none).tellDies k

/-- A whole contribution or result, in its cell or poisoned, reaches its node. -/
def State.chunkGive (s : State) (p : RxPkt) (cell : Option Handle) : State :=
  let h := p.hdr 0
  let k := hdrKey h
  let t := s.groupTree (W8.sgroup h) (W8.tseq h)
  if W8.sdir h = 0 then
    (match s.upTarget t (W8.ssrc h) with
      | some (v, child) => s.upIn k v child cell
      | none => s)
  else (match s.downTarget t (W8.ssrc h) with
    | some v => s.downIn k v (W8.tpoison h) p.pab cell
    | none => s)

/-- The shape that a packet's chunk opens with: a poisoned packet says no length. -/
def State.openShape (s : State) (p : RxPkt) (bad : Bool) : ChunkShape :=
  let g := hdrShape (p.hdr 0)
  if bad then { g with len := (s.chunkOf (hdrKey (p.hdr 0))).elim g.len (fun c => c.shape.len) } else g

/-- A good packet in a P4 cell: the bytes that are in go there and free their places, and the rest follow as they come (R212,
R269); the whole packet reaches its node. -/
def State.chunkStore (s : State) (n i : Nat) (p : RxPkt) : State :=
  match p.taken with
  | some (some c, _) => if p.whole then (s.rxRemove n 1 i).chunkGive p (some c) else s
  | _ =>
    match s.allocP4 1 (.rx n 1) with
    | (none, s1) => s1
    | (some c, s1) =>
      let s2 := (s1.postPay .cluRx (n / 2) true c 0 p.body.length).writePay c 0 p.body
      if p.whole then (s2.rxRemove n 1 i).chunkGive p (some c)
      else (s2.setRx n 1 i { p with taken := some (some c, []), places := 0 }).freePlaces n 1 p.places

/-- Take a checked packet into its chunk. -/
def State.chunkTake (s : State) (n i : Nat) (p : RxPkt) : State :=
  let k := hdrKey (p.hdr 0)
  let bad := W8.tpoison (p.hdr 0) || p.pab
  if before 32 k.1 s.curSeq || (s.chunkOf k).any (·.final) then (s.chunkDrop n i p).inc R.swarmLateCnt 1
  else if !(k.1 == s.curSeq || k.1 == seqAdd s.curSeq 1) then s.swmHdrBad n i p
  else match s.ensureChunk k (s.openShape p bad) with
    | none => s
    | some s0 =>
      if bad then (((s0.notePoison k).markPoison k.1).chunkDrop n i p).chunkGive p none
      else s0.chunkStore n i p

/-- SWARM_CHUNK_RX. -/
def State.chunkRx (s : State) (n : Nat) : State :=
  match s.swmHead n with
  | none => s
  | some (i, p) =>
    if !s.member then s
    else if !s.chunkHdrOk p then (s.swmHdrBad n i p).swarmSettle
    else if W8.sdir (p.hdr 0) = 2 then s
    else (s.chunkTake n i p).swarmSettle

/-- A NOTICE at the package that holds the root, or on its way to it (R354 rules 3 and 4). -/
def State.noticeIn (s : State) (k : ChunkKey) : State :=
  match s.chunkOf k with
  | none => s
  | some c =>
    let t := s.groupTree c.group c.step
    let top := (s.ownLevels t).foldl max 0
    if top < t.scope then s.sendNotice c top
    else match c.node top with
      | none => s
      | some x => (if x.done then s.resultPoison k top true else ((s.notePoison k).dropHeld x).nodeOut k top none).tellDies k

/-- SWARM_NOTICE_RX. -/
def State.noticeRx (s : State) (n : Nat) : State :=
  match s.swmHead n with
  | none => s
  | some (i, p) =>
    if !s.member || !s.chunkHdrOk p || W8.sdir (p.hdr 0) != 2 then s
    else ((s.chunkDrop n i p).noticeIn (hdrKey (p.hdr 0))).swarmSettle

/-! ### Opening the next chunk (R352) and going on after a wait -/

/-- SWARM_CHUNK_OPEN: waiting contributions are taken as the window and the P4 pool let them, and nodes go on. -/
def State.swarmOpen (s : State) : State :=
  let s1 := s.swarm.chunks.foldl (fun s c => if c.final then s else s.workChunk c.key) s
  let s2 := (List.range s.nRegions).foldl (fun s a => s.pumpSwm a ((s.port a).swm.length + 1)) s1
  s2.swarmSettle

/-! ### SWARM_OUT and SWARM_SIGNAL (R341, R342) -/

def outHdr (o : SwmOut) : W8 :=
  let g := o.shape
  dieHdr 7 g.fmt false false g.block (g.len / 16) 0 0 0 o.key.2.2.2 (at_ 28 g.op ||| at_ 24 o.key.2.1 ||| at_ 12 o.key.2.2.1)
    (at_ 16 o.key.2.2.2 ||| at_ 0 g.chunks) o.key.1 0 (at_ 0 g.elems)

def signalHdr (o : SwmOut) : W8 :=
  let g := o.shape
  dieHdr 8 0 false false false 0 0 0 0 0 0 0 o.key.1
    (at_ 28 g.op ||| at_ 24 o.key.2.1 ||| at_ 18 (o.key.2.2.1 / 64) ||| at_ 12 (o.key.2.2.1 % 64) ||| at_ 0 o.status)
    (at_ 16 o.key.2.2.2 ||| at_ 0 g.chunks)

/-- The Swarm message at the head for a die. -/
def State.outHead (s : State) (a : Nat) : Option SwmOut := s.swarm.outs.find? (fun o => o.die == a)

/-- Remove the first message of a die. -/
def dropFirst (a : Nat) : List SwmOut → List SwmOut
  | [] => []
  | o :: r => if o.die = a then r else o :: dropFirst a r

/-- The head message leaves: its output's cell is released, or its signal is told. An output whose handle is stale sends nothing
(R167). -/
def State.sendSwarm (s : State) (a : Nat) (o : SwmOut) : State :=
  let s0 := s.updSwarm (fun w => { w with outs := dropFirst a w.outs })
  match o.cell with
  | some h => match s0.useHandle h o.shape.len .dieTx a none with
    | (false, s1) => s1.swarmSettle
    | (true, s1) =>
      let body := s1.payload h o.shape.len
      let s2 := (((s1.postPay .dieTx a false h 0 o.shape.len).sendDie a (outHdr o) body).spend a 2 (creditsFor body.length)).release h
        0 none
      (s2.updChunk o.key (fun c => { c with good := c.good ++ [a] })).swarmSettle
  | none =>
    let s1 := (s0.sendDie a (signalHdr o) []).spend a 2 1
    (s1.updChunk o.key (fun c => { c with told := c.told ++ [a] })).swarmSettle

/-! ### The Swarm's control queues (R353, R463) -/

/-- The control queues are read: corrected words are counted, and an uncorrectable one poisons the chunks held. -/
def State.swarmUpsets (s : State) : State :=
  let (ce, s1) := s.meet (.swarmQ false)
  let s2 := if ce then s1.inc R.swarmCeCnt 1 else s1
  let (ue, s3) := s2.meet (.swarmQ true)
  if ue then (s3.swarm.chunks.filter (fun c => !c.final)).foldl (fun t c => t.detectPoison c.key) (s3.inc R.swarmUeCnt 1)
  else s3

/-! ### The Keepers' group (R336, R240) -/

/-- The Keepers contribute one chunk of group 15. -/
def State.keeperChunk (s : State) (step c n elems : Nat) (vals : List Nat) : State :=
  let bs := padded16 (packCodes 32 vals)
  let k : ChunkKey := (step, 15, 0, c)
  let g : ChunkShape := { op := 1, fmt := 8, block := false, chunks := n, elems := elems, len := bs.length, root := 0 }
  match s.ensureChunk k g with
  | none => s
  | some s0 =>
    if ((s0.chunkOf k).bind (fun c => c.node 0)).any (fun x => x.got.contains 0) then s0
    else match s0.allocP4 1 (.swmPort 5) with
      | (none, s1) => s1
      | (some cell, s1) => ((s1.postPay .keeper 0 true cell 0 bs.length).writePay cell 0 bs).contribute k 0 (some cell)

/-- Chunks of steps before the current one that are final are forgotten. -/
def State.dropOldChunks (s : State) : State :=
  (s.updSwarm (fun w => { w with chunks := w.chunks.filter (fun c => !(c.final && before 32 c.step s.curSeq))
                                 mark := w.mark.filter (fun x => !before 32 x s.curSeq)
                                 late := w.late.filter (fun x => !before 32 x s.curSeq) })).swarmStatus

end Sys2Proof.Machine
end

