-- ==== Sys2Proof/Machine/PortOut.lean ====
section
/-! DEFINITION. Machine/PortOut.lean: the transmit side of a die port: which message leaves next (R26, R28, R213). -/

namespace Sys2Proof.Machine

/-- Classes of messages that share a die port below CREDIT, in priority order. -/
abbrev pcSwarm : Nat := 0
abbrev pcTile : Nat := 1
abbrev pcManifest : Nat := 2
abbrev pcComb : Nat := 3
/-- CREDIT, which goes before them all -/
abbrev pcCredit : Nat := 4

/-- Credits that a Swarm message needs. -/
def SwmOut.need (o : SwmOut) : Nat := if o.cell.isSome then creditsFor o.shape.len else 1

/-- The head message of a class is ready and holds its credit. -/
def State.classReady (s : State) (a k : Nat) : Bool :=
  if k = 0 then match s.outHead a with
    | some o => decide (o.need ≤ s.heldCredits a 2)
    | none => false
  else if k = 1 then match s.tileHead a with
    | some t => decide (creditsFor (s.tileBodyLen t) ≤ s.heldCredits a 0)
    | none => false
  else if k = 2 then match (s.port a).mans with
    | (l, _) :: _ => decide (creditsFor (s.dieManLen l a) ≤ s.heldCredits a 0)
    | [] => false
  else match s.combNext a with
    | some (l, _, rows, _) => decide (creditsFor (s.combLen l rows.length) ≤ s.heldCredits a 1)
    | none => false

/-- For each message that waits in a class, in order: it is ready and the class's credit covers it (R213). -/
def State.classWaiting (s : State) (a k : Nat) : List Bool :=
  if k = 0 then (s.swarm.outs.filter (fun o => o.die == a)).map (fun o => decide (o.need ≤ s.heldCredits a 2))
  else if k = 1 then (s.port a).tiles.map (fun i => match s.tileByIdx i with
    | some t => s.tileIn t && decide (creditsFor (s.tileBodyLen t) ≤ s.heldCredits a 0)
    | none => false)
  else if k = 2 then (s.port a).mans.map (fun m => decide (creditsFor (s.dieManLen m.1 a) ≤ s.heldCredits a 0))
  else (s.combQueue a).map (fun m => decide (creditsFor (s.combLen m.1 m.2.2) ≤ s.heldCredits a 1))

/-- Classes with a ready message, in priority order. -/
def State.readyClasses (s : State) (a : Nat) : List Nat := ([0, 1, 2, 3] : List Nat).filter (fun k => s.classReady a k)

/-- A CREDIT is ready: credits are owed in some class and may go back (R27, R29). -/
def State.creditReady (s : State) (a : Nat) : Bool := s.creditsOpen && s.awake && (s.port a).creditNext.isSome

/-- The class that leaves next: one whose head message was passed over 16 times, else the highest priority (R213). -/
def State.portPick (s : State) (a : Nat) : Option Nat :=
  let r := s.readyClasses a
  match r.find? (fun k => decide (16 ≤ ((s.port a).passed.getD k []).headD 0)) with
  | some k => some k
  | none => if s.creditReady a then some pcCredit else r.head?

/-- The counts of a class's messages after one of higher priority has left: each ready one counts it. -/
def bumpPassed : List Nat → List Bool → List Nat
  | _, [] => []
  | cs, b :: bs => (cs.headD 0 + b2n b) :: bumpPassed (cs.drop 1) bs

/-- The head of class k leaves: every ready message of lower priority has been passed over once more. -/
def State.notePassed (s : State) (a k : Nat) : State :=
  s.updDie a (fun p => { p with passed := p.passed.zipIdx.map (fun q =>
    if q.2 = k then q.1.drop 1 else if k < q.2 then bumpPassed q.1 (s.classWaiting a q.2) else q.1) })

/-- A CREDIT leaves: every ready message is passed over. -/
def State.notePassedAll (s : State) (a : Nat) : State :=
  s.updDie a (fun p => { p with passed := p.passed.zipIdx.map (fun q => bumpPassed q.1 (s.classWaiting a q.2)) })

/-- A die port may send: the fast clocks of E0 run. -/
def State.portFree (s : State) (a k : Nat) : Bool := s.awake && s.portPick a == some k

/-- The head of class k of die port a is read under parity (R462). -/
def State.outRead (s : State) (a k : Nat) (drop act : State → State) : State :=
  s.checked (.dieOut a) (8 * a) (fun t => (drop t).updDie a (fun p => { p with passed := updAt p.passed k (·.drop 1) })) act

/-- EXP_TILE_SEND. -/
def State.expTileOut (s : State) (a : Nat) : State :=
  if s.inStep && s.portFree a pcTile then
    s.outRead a pcTile (fun t => t.updDie a (fun x => { x with tiles := x.tiles.drop 1 })) fun s =>
      match s.tileHead a with
      | some t => (s.notePassed a pcTile).sendTile a t
      | none => s
  else s

/-- TILE_MANIFEST_SEND. -/
def State.dieManOut (s : State) (a : Nat) : State :=
  if s.inStep && s.portFree a pcManifest then
    s.outRead a pcManifest (fun t => t.updDie a (fun x => { x with mans := x.mans.drop 1 })) fun s =>
      match (s.port a).mans with
      | (l, h) :: _ => (s.notePassed a pcManifest).sendDieMan a l h
      | [] => s
  else s

/-- SWARM_OUT_SEND: `cell` tells an output from a signal. -/
def State.swarmOutOf (s : State) (a : Nat) (output : Bool) : State :=
  if s.portFree a pcSwarm then
    (match s.outHead a with
      | some o => if o.cell.isSome == output then (s.notePassed a pcSwarm).sendSwarm a o else s
      | none => s)
  else s

end Sys2Proof.Machine
end

