-- ==== Sys2Proof/Machine/Barrier.lean ====
section
/-! DEFINITION. Machine/Barrier.lean: the step barrier (R357 to R366). -/

namespace Sys2Proof.Machine

def State.updBar (s : State) (f : Barrier → Barrier) : State := { s with bar := f s.bar }

/-! ### The barrier tree (R357, R358) -/

/-- The group whose DOMS and REP extend the barrier, where one does. -/
def State.barGroup (s : State) : Option Nat :=
  let g := s.eff F.swarmBarCtlXgrp
  if s.eff F.swarmBarCtlXdom = 1 ∧ g ≠ 15 then some g else none

/-- The tree of the barrier of step x without the excluded packages. -/
def State.barTree (s : State) (x : Nat) (excl : List Nat) : TreeDesc :=
  let ms := (s.membersAt x).filter (fun p => !excl.contains p)
  match s.barGroup with
  | some g => ⟨4, ms, s.groupDoms g x, s.groupRep g x⟩
  | none => ⟨3, ms, [], 0⟩

/-- Every child of an own node that sits elsewhere: (level, child, seat). -/
def State.barKids (s : State) (t : TreeDesc) : List (Nat × Nat × Nat) :=
  (s.ownLevels t).flatMap (fun v => ((s.kids t v).filter (fun q => q.2 != s.cmid)).map (fun q => (v, q.1, q.2)))

/-- The highest own node. -/
def State.barTop (s : State) (t : TreeDesc) : Nat := (s.ownLevels t).foldl max 0

/-- The own node of a level and every child of it have arrived; a child that sits here needs no packet. -/
def State.barNode (s : State) (t : TreeDesc) : Nat → Bool
  | 0 => true
  | v + 1 => (s.kids t (v + 1)).all (fun q =>
      if q.2 == s.cmid then s.barNode t v else s.bar.kids.any (fun a => a.1 == v + 1 && a.2.1 == q.1))

/-- The fire cycle is known, or the barrier is armed: its RELEASEs have gone out. -/
def Barrier.released (b : Barrier) : Bool := b.fireAt.isSome || b.armed

/-! ### ARRIVE and RELEASE packets (R343) -/

def State.barHdr (s : State) (op dst w2 w3 : Nat) (poison : Bool) (step : Nat) : W8 :=
  { w0 := at_ 28 4 ||| at_ 22 (b2n poison), w1 := at_ 28 op, w2 := BitVec.ofNat 32 w2, w3 := at_ 0 w3,
    w4 := BitVec.ofNat 32 step, w5 := at_ 20 s.cmid ||| at_ 2 (s.epochAt step), w6 := at_ 20 dst, w7 := 0 }

/-- ARRIVE to the parent's package. -/
def State.sendArrive (s : State) (dst version : Nat) (poison : Bool) : State :=
  s.sendHdr 0 dst (s.barHdr 8 dst version 0 poison s.bar.step)

/-- RELEASE to a child's package; REM is taken from the fire cycle when its slot is granted (R359). -/
def State.sendRelease (s : State) (dst version : Nat) (poison : Bool) (fire step : Nat) : State :=
  let h := s.barHdr 9 dst 0 version poison step
  s.sendPkt { TxPkt.own 0 dst 1 h.sealed.bytes none [] with fire := some fire }

def State.releaseKids (s : State) (t : TreeDesc) (fire : Nat) : State :=
  (s.barKids t).foldl (fun s k => s.sendRelease k.2.2 s.bar.excl.length s.bar.poison fire s.bar.step) s

/-! ### Arriving (R357, R358) -/

/-- VERSION, ROOT and STATE as the barrier stands. -/
def State.barStatus (s : State) : State :=
  let t := s.barTree s.bar.step s.bar.excl
  let root := s.bar.open_ && decide (t.scope ≤ s.barTop t)
  let st := if !s.bar.open_ then 0 else if s.bar.armed then 3 else if s.bar.fireAt.isSome then 2 else b2n s.bar.arrived
  ((s.put F.swarmBarStatusState st).put F.swarmBarStatusRoot (b2n root)).put F.swarmBarStatusVersion s.bar.excl.length

/-- Every chunk of the step that the package holds is final (R357). -/
def State.stepChunksFinal (s : State) (x : Nat) : Bool := s.swarm.chunks.all (fun c => c.step != x || c.final)

/-- The fire cycle is known: RELEASE goes to the children, and in EXT mode the barrier is armed (R359, R364). -/
def State.setFire (s : State) (fire : Nat) : State :=
  let t := s.barTree s.bar.step s.bar.excl
  let s1 := s.updBar (fun b => { b with fireAt := some fire, armed := s.eff F.swarmBarCtlExt == 1 })
  (s1.releaseKids t fire).barStatus

/-- LEAD in force. -/
def State.barLead (s : State) : Nat := max 64 (s.eff F.swarmBarCtlLead)

/-- ARRIVE goes up from an own node: to the package of its parent, or at the root the fire cycle is set, once (R357, R359). -/
def State.barUp (s : State) (t : TreeDesc) (cyc v : Nat) : State :=
  let s1 := s.updBar (fun b => { b with sent := b.sent ++ [v] })
  if t.scope ≤ v then (if s1.bar.released then s1 else (s1.put F.swarmBarStatusLate 0).setFire (cyc + s1.barLead))
  else
    let up := s1.seat t (v + 1) s1.self
    if up = s1.cmid then s1 else s1.sendArrive up s1.bar.excl.length s1.bar.poison

/-- The package arrives: own nodes send their ARRIVEs once every child has arrived, and with the last of them the package
itself has arrived (R357); `cyc` is the current F-MOVE cycle. -/
def State.barTry (s : State) (cyc : Nat) : State :=
  if !s.bar.open_ || !s.stepChunksFinal s.bar.step then s
  else
    let t := s.barTree s.bar.step s.bar.excl
    let levels := s.ownLevels t
    let ups := levels.filter (fun v => s.barNode t v && !s.bar.sent.contains v)
    let poison := s.swarm.mark.contains s.bar.step || s.bar.kids.any (fun a => a.2.2)
    let s1 := if s.bar.released then s else s.updBar (fun b => { b with poison := b.poison || poison })
    let first := !s1.bar.released && (match s1.timerOf tmBar with
      | some x => !(s1.timer x).armed
      | none => true)
    let s2 := if s1.bar.arrived || !levels.all (s1.barNode t) then s1
      else
        let u := s1.updBar (fun b => { b with arrived := true })
        if first then u.arm tmBar (max 1 (u.eff F.swarmBarTmoMs)) else u
    (ups.foldl (fun u v => u.barUp t cyc v) s2).barStatus

/-- Held ARRIVEs of the open barrier at its VERSION are counted, lower ones are discarded (R358). A child that a loss has
moved here after the RELEASEs went gets its own (R359; assumption row 106). -/
def State.barCount (s : State) : State :=
  if !s.bar.open_ then s
  else
    let t := s.barTree s.bar.step s.bar.excl
    let v := s.bar.excl.length
    let mine := fun (a : Nat × Nat × Nat × Bool) => a.1 == s.bar.step
    let hits := (s.bar.ahead.filter (fun a => mine a && a.2.2.1 == v)).filterMap (fun a =>
      (s.upTarget t a.2.1).map (fun k => (a.2.1, k.1, k.2, a.2.2.2)))
    let s1 := s.updBar (fun b =>
      { b with kids := b.kids ++ hits.map (·.2), ahead := b.ahead.filter (fun a => !mine a || decide (v < a.2.2.1)) })
    if s1.bar.released then
      hits.foldl (fun u a => u.sendRelease a.1 v u.bar.poison (u.bar.fireAt.getD 0) u.bar.step) s1
    else s1

/-- The barrier of step x opens (R358). -/
def State.barOpen (s : State) (x : Nat) : State :=
  let excl := (s.membersAt x).filter (fun p => s.isLost p && p != s.self)
  let s1 := s.updBar (fun b =>
    { b with open_ := true, step := x, excl := excl, kids := [], arrived := false, sent := [], poison := false,
             fireAt := none, armed := false })
  (s1.barCount.barTry s1.chip.now).barStatus

/-- An open barrier at which the package has not arrived is tried again. -/
def State.barGo (s : State) : State :=
  if s.bar.open_ && !s.bar.arrived then s.barTry s.chip.now else s

/-- After whatever a chunk may have waited for: chunks become final, and with the last of them the package may arrive
(R354, R357). -/
def State.swarmMoves (s : State) : State :=
  (if s.swarm.chunks.any (fun c => !c.final) then s.swarmSettle else s).barGo

/-- A LOSS received while the barrier is open excludes the package, up to the moment it fires (R358). -/
def State.barExclude (s : State) (p : Nat) : State :=
  if !s.bar.open_ || s.bar.excl.contains p || !(s.membersAt s.bar.step).contains p then s
  else
    let s1 := s.updBar (fun b => { b with excl := insertAsc p b.excl, kids := [], arrived := false, sent := [] })
    (s1.barCount.barTry s1.chip.now).barStatus

/-! ### Receiving (R344, R359 to R363) -/

/-- The oldest packet of VC0 of link n that is for this package, once it is whole. -/
def State.ctlHead (s : State) (n : Nat) : Option (Nat × RxPkt) :=
  match (s.rxq n 0).zipIdx.find? (fun q => q.1.relay.isNone) with
  | some (p, i) => if p.whole then some (i, p) else none
  | none => none

/-- A VC0 packet of TYPE 0x4 with an operation. -/
def RxPkt.isBar (p : RxPkt) (op : Nat) : Bool := !p.mg && p.type == 4 && W8.sop (p.hdr 0) == op

/-- A VC0 packet of TYPE 0x4 that is neither ARRIVE nor RELEASE. -/
def RxPkt.barOdd (p : RxPkt) : Bool := !p.mg && p.type == 4 && W8.sop (p.hdr 0) != 8 && W8.sop (p.hdr 0) != 9

/-- R344 for an ARRIVE or a RELEASE. -/
def State.barHdrOk (s : State) (p : RxPkt) : Bool :=
  let h := p.hdr 0
  let src := W8.ssrc h
  p.hdrsIn && p.nhdr == 1 && h.ok && W8.sdst h == s.cmid && W8.tfmt h == 0 && W8.tlen h == 0 &&
    (if src / 512 = s.dom then (s.membersAt (W8.tseq h)).contains (src % 512) && W8.sepoch h == s.epochAt (W8.tseq h)
     else match s.barGroup with
       | some g => (s.groupDoms g (W8.tseq h)).contains (src / 512) && src % 512 == s.groupRep g (W8.tseq h)
       | none => false)

def State.barBad (s : State) (n i : Nat) : State := (s.rxRemove n 0 i).inc R.swarmHdrErrCnt 1

/-- ARRIVE_RX. -/
def State.arriveRx (s : State) (n cyc : Nat) : State :=
  match s.ctlHead n with
  | none => s
  | some (i, p) =>
    if p.barOdd && s.member then s.barBad n i
    else if !p.isBar 8 || !s.member then s
    else if p.pab then s.rxRemove n 0 i
    else if !s.barHdrOk p then s.barBad n i
    else
      let h := p.hdr 0
      let x := W8.tseq h
      let v := fld h.w2 9 0
      let s1 := s.rxRemove n 0 i
      match s1.bar.fired with
      | some (y, mark) =>
        if y = x then s1.sendRelease (W8.ssrc h) v mark 0 x
        else if before 32 x s1.stepSeq then s1
        else ((s1.updBar (fun b => { b with ahead := b.ahead ++ [(x, W8.ssrc h, v, W8.tpoison h)] })).barCount.barTry cyc).barStatus
      | none =>
        if before 32 x s1.stepSeq then s1
        else ((s1.updBar (fun b => { b with ahead := b.ahead ++ [(x, W8.ssrc h, v, W8.tpoison h)] })).barCount.barTry cyc).barStatus

/-- A RELEASE for the open barrier gives the fire cycle: receipt + REM − DELAY, or the next cycle, late (R359, R360). After the receipt
the timeout no longer counts; the root, which gets none, times out until it fires (R366, R455, assumption row 106). -/
def State.takeRelease (s : State) (n cyc : Nat) (h : W8) : State :=
  let t := cyc + h.w2.toNat - s.get (F.linkRttDelay n)
  let late := decide (t ≤ cyc)
  let s1 := s.updBar (fun b => { b with poison := b.poison || W8.tpoison h })
  let s2 := s1.put F.swarmBarStatusLate (b2n late)
  ((if late then s2.inc R.swarmBarLateCnt 1 else s2).disarm tmBar).setFire (if late then cyc + 1 else t)

/-- RELEASE_RX. -/
def State.releaseRx (s : State) (n cyc : Nat) : State :=
  match s.ctlHead n with
  | none => s
  | some (i, p) =>
    if !p.isBar 9 || !s.member then s
    else if p.pab then s.rxRemove n 0 i
    else if !s.barHdrOk p then s.barBad n i
    else
      let h := p.hdr 0
      let s1 := s.rxRemove n 0 i
      let s2 := if 0 < p.hops then s1.inc R.swarmBarRelayCnt 1 else s1
      if s2.bar.open_ && W8.tseq h == s2.bar.step && !s2.bar.released then s2.takeRelease n cyc h else s2

/-! ### Firing (R362, R364) -/

/-- The barrier fires: stamps, the mark, and its close. -/
def State.barFired (s : State) : State :=
  let x := s.bar.step
  let p := s.bar.poison
  let s1 := ((s.setPair R.swarmBarTLo s.chip.now).setNum R.swarmBarStep x).inc R.swarmBarCnt 1
  let s2 := (s1.put F.swarmBarStatusPoison (b2n p)).disarm tmBar
  let s3 := if p then s2.markPoison x else s2
  -- ARRIVEs of this barrier that are still held are answered like any that comes now (R363)
  let held := s3.bar.ahead.filter (fun a => a.1 == x)
  let s4 := held.foldl (fun u a => u.sendRelease a.2.1 a.2.2.1 p 0 x) s3
  (s4.updBar (fun b =>
    { b with open_ := false, arrived := false, armed := false, fired := some (x, p), ahead := b.ahead.filter (fun a => a.1 != x)
             fireAt := if b.armed then b.fireAt else none })).barStatus

/-- The timeout of R366. -/
def State.barExpire (s : State) : State :=
  if s.bar.open_ && s.due tmBar then
    ((s.disarm tmBar).inc R.swarmBarTmoCnt 1).err 0x10 0 none
  else s

end Sys2Proof.Machine
end

