-- ==== Sys2Proof/Machine/StepEnd.lean ====
section
/-! DEFINITION. Machine/StepEnd.lean: a layer done (R18), the end of a step (R19), its Ask (R384), the save area (R397) and
the end of a job at a step boundary (R395, R396). -/

namespace Sys2Proof.Machine

/-! ### A layer is done (R18) -/

/-- Every combined row of both halves of a layer in flight has been written to its compute die. -/
def State.layerComplete (s : State) (l : Nat) : Bool :=
  let r := s.layerRec l
  r.flying && (List.range s.nRegions).all (fun a =>
    ([0, 1] : List Nat).all (fun h => s.halfLast l h && (s.half l h).cap == 2 && (s.portHalf l h a).combDone))

/-- R18, R152, R324, R446: the digest is recorded, the scale offset adapts and the next layer's gap starts; a third layer
enters once the oldest in flight is done (R17). Which of several
layers waiting at different die ports takes the freed place R17 does not say: the ports are served in ascending order.
Where the younger of two layers is done first, it keeps its place until the older one, the first to have come in flight, is done, so
a third layer waits though one alone is in flight (both DESIGN CHOICE, assumption row 96). -/
def State.layerEnd (s : State) (l : Nat) : State :=
  let d := (s.layerRec l).digest
  let s1 := s.updStep (fun t =>
    let done := insertAsc l t.done
    { t with done := done, flights := t.flights.dropWhile (fun k => done.contains k), digests := SMap.set zeroAt t.digests l d })
  let s2 := (s1.adaptScale l).noteTp l
  let s3 := { s2 with tel := { s2.tel with layers := s2.tel.layers + 1 } }
  let s4 := s3.updLayer l (fun r => { r with flying := false })
  let s5 := if l + 1 < s4.modelLayers && !(s4.layerRec (l + 1)).flying && !s4.layerDone (l + 1) then (s4.gapStart (l + 1)).stagedGaps else s4
  (List.range s5.nRegions).foldl (fun s a => s.pumpHs a ((s.port a).hs.length + 1)) s5

/-! ### The save area (R397) -/

def State.scaleBytes (s : State) : List Byte := wordsBytes ((List.range 256).map (fun l => s.word (R.whiskScale l)))

/-- The saved stream entries, ascending. -/
def State.saveStreams (s : State) : List (List Byte) := s.streamIds.map s.streamBytes

/-- Bytes of a roster copy, from its base. -/
def State.rosterSize (s : State) : Nat := 0x1000 + 131072 * s.modelLayers

/-- The active roster copy from its base; none in island mode. -/
def State.saveRoster (s : State) : List Byte :=
  if s.get F.rosterEpochActive = 0 then [] else s.hget (rosterBase s.activeCopy) s.rosterSize

/-- The Keepers read what a save holds: every stream entry, and in fleet mode the whole active roster copy under SECDED (R160). A
failing entry or roster record is counted and is a control error (R464, R234); true where none fails. -/
def State.readSaved (s : State) : Bool × State :=
  let (ok, s1) := s.checkStreams .keeper 0 s.streamIds
  if s1.get F.rosterEpochActive = 0 then (ok, s1)
  else
    let bad := (s1.readRoster s1.activeCopy).2
    (ok && bad == 0, ((s1.readMeta .keeper 0 (rosterBase s1.activeCopy) s1.rosterSize).1).rosterBads bad)

/-- The body of the save area leaves, once everything in it has been read: a record that fails is a control error, and the save
stops (R464, R466). -/
def State.saveBody (s0 : State) : State :=
  let (ok, s) := s0.readSaved
  if !ok then s else
  let s1 := s.dma (s.job.saveAt + 0x100) s.scaleBytes
  let s2 := s.saveStreams.zipIdx.foldl (fun t p => t.dma (s.job.saveAt + 0x1000 + 256 * p.2) p.1) s1
  if s.saveRoster.isEmpty then s2 else s2.dma (s.job.saveAt + 0x401000) s.saveRoster

/-- The save header V0 to V15. -/
def State.saveHeader (s : State) : List Byte :=
  let n := fun (v : Nat) => (BitVec.ofNat 32 v : Word)
  let body := s.scaleBytes ++ s.saveStreams.flatten ++ s.saveRoster
  sealWords [at_ 0 (s.get F.jobIdId), n s.nextSeq, n s.saveStreams.length, n s.modelLayers,
    at_ 0 (s.get F.rosterEpochActive), n s.saveRoster.length, 0, n s.chip.now, n (s.chip.now / 2 ^ 32), 0, 0, 0, 0, 0,
    crc32c body]

/-- Membership has ended; the roster copy stays readable until the Hive is zeroised. -/
def State.leaveMembership (s : State) : State :=
  let s1 := (((s.put F.bootStageMember 0).put F.rosterStatusPhase 0).put F.rosterStatusLeader 0).put F.rosterStatusMembers 0
  (s1.disarm tmRev).hushLinks

/-- After the final Ask: SAVING after YIELD, else the job ends (R389, R396). -/
def State.afterFinal (s : State) : State :=
  if s.job.yield then
    let s1 := ((s.stopJobTimers.put F.jobStatusState jsSaving).put F.jobStatusEndPending 0).leaveMembership.drainLeft
    s1.saveBody
  else s.endJob s.job.endReason

/-- SAVE_DONE: the header is written last (R398), and the job ends. -/
def State.saveDone (s : State) : State :=
  if s.jobState = jsSaving then (s.dma s.job.saveAt s.saveHeader).endJob 2 else s

/-! ### The end of a step (R19) -/

/-- LADLE_DIG_STEP, LADLE_DIG_VALID and LADLE_DIGEST show the completed step (R324). -/
def State.showDigests (s : State) : State :=
  let s1 := s.setNum R.ladleDigStep s.stepSeq
  let s2 := s.digValid.zipIdx.foldl (fun t p => t.setWord (R.ladleDigValid p.2) p.1) s1
  s.digestWords.zipIdx.foldl (fun t p => t.setWord (R.ladleDigest p.2) p.1) s2

/-- The Ask of the step is written, and the boundary begins (R384, R395, R396); at the job's last boundary too the host's
scale entry is set (R154). -/
def State.finishStep (s : State) : State :=
  let seq := s.stepSeq
  let final := s.job.endSeq == some seq
  let status := s.stepStatus (final && s.job.yield)
  let s1 := s.showDigests.writeAsk ⟨seq, status, false, false, final, true, true⟩
  let s2 := s1.updStep (fun t => { t with inProg := false, tornEarly := [] })
  if final then s2.applyScaleSet.afterFinal else s2.afterAsk

/-- Token counts of every stream (S3 to S5 of R380). -/
def State.countTokens (s : State) : State :=
  s.streamIds.foldl (fun t i =>
    let n := SMap.get zeroAt s.step.tokOf i
    t.bumpStream .keeper 0 i (fun x => { x with tokLast := n, tokTotal := x.tokTotal + n })) s

/-- R240 step 2: the demand counters are snapshot and cleared at the end of step sw. -/
def State.snapshot (s : State) : State :=
  match s.roster.rev with
  | some r =>
    if r.sw = s.stepSeq && !r.late && r.snap.isNone then
      let r1 := { r with snap := some s.roster.demand, limits := s.word R.rosterLimits, quota := s.get F.rosterQuotaLqf
                         lost := s.roster.lost }
      ({ s with roster := { s.roster with rev := some r1, demand := [] } }).put F.rosterStatusPhase 3
    else s
  | none => s

/-- A flush ends with its step (R216). -/
def State.endFlush (s : State) : State :=
  (List.range s.nClusters).foldl (fun t c => (t.put (F.cluFlushScope c) 0).put (F.cluFlushActive c) 0)
    { s with clus := s.clus.map (fun c => { c with teardown := [] }) }

def State.noteStepTel (s : State) : State :=
  let us := (s.step.endedAt - s.step.acceptedAt) / 1000
  { s with tel := { s.tel with steps := s.tel.steps + 1, tokens := s.tel.tokens + s.step.cnt.tokens,
                               stepMax := max s.tel.stepMax us, stepSum := s.tel.stepSum + us } }

/-- R19: the step ends; the barrier opens in fleet mode, and in island mode the Ask is written. The control errors that its end has
found act first, so that this Ask reports a teardown of them (R402, R471) and is the FAULT_PARTITION Ask of a reset (R468). -/
def State.stepEnd (s : State) : State :=
  let s1 := s.updStep (fun t => { t with ended := true, endedAt := s.chip.now })
  let s2 := ((s1.disarm tmDeadline).endFlush.latchPeaks.countTokens.noteStepTel).snapshot
  s2.unlessReset fun s3 => if s3.step.fleet then s3.barOpen s3.stepSeq else s3.finishStep

/-- The layers that have just become done, and the end of the step with the last of them. -/
def State.layersDone (s : State) : State :=
  let s1 := s.inFlight.foldl (fun s l => if s.layerComplete l then s.layerEnd l else s) s
  if s1.step.inProg && !s1.step.ended && s1.step.done.length == s1.modelLayers then s1.stepEnd else s1

/-- COMB_RESULT_SEND. -/
def State.combOut (s : State) (a : Nat) : State :=
  if s.inStep && s.portFree a pcComb then
    s.outRead a pcComb (fun t => t.updStep (fun u => { u with combQ := updAt u.combQ a (·.drop 1) })) fun s =>
      match s.combNext a with
      | some (l, h, rows, last) => ((s.notePassed a pcComb).sendComb a l h rows last).layersDone
      | none => s
  else s

/-! ### BARRIER_FIRE (R362, R364) -/

/-- The fire cycle has come: the barrier fires, and the step's Ask follows. In EXT mode the cycle only drives
erp_sync_out; the barrier fires at erp_sync_in. -/
def State.barrierFire (s : State) (cyc : Nat) : State :=
  match s.bar.fireAt with
  | some t =>
    if cyc < t then s
    else if s.bar.open_ && !s.bar.armed then (s.barFired.emit .syncPulse).finishStep
    else (s.updBar (fun b => { b with fireAt := none })).emit .syncPulse
  | none => s

end Sys2Proof.Machine
end

