-- ==== Sys2Proof/Machine/Roster.lean ====
section
/-! DEFINITION. Machine/Roster.lean: rosters as values (R233), change rosters (R247), the revision algorithm (R241) and
the operations that put a roster in force. -/

namespace Sys2Proof.Machine

def State.updRoster (s : State) (f : Roster → Roster) : State := { s with roster := f s.roster }

/-- R247: the change roster that a set of departures and joins derives. -/
def RosterVal.change (v : RosterVal) (x : Nat) (gone come : List Nat) : RosterVal :=
  let rest := v.members.filter (fun p => !gone.contains p)
  let fix := fun (l e : Nat) (ps : List Nat) =>
    let qs := ps.filter (fun p => !gone.contains p)
    if qs.isEmpty then [rest.getD ((1024 * l + e) % rest.length) 0] else qs
  { epoch := next16 (next16 v.epoch), lqf := v.lqf, act := x, members := come.foldl (fun a p => insertAsc p a) rest
    sets := v.sets.mapIdx (fun l es => es.mapIdx (fun e ps => fix l e ps)) }

/-! ### The revision algorithm (R241) -/

structure RevLimits where
  p : Nat
  smin : Nat
  smax : Nat
  hys : Nat
  deriving DecidableEq, Repr

/-- ROSTER_LIMITS with the conversions of its field table. -/
def revLimits (w : Word) : RevLimits :=
  let smax := clampNat (fld w 21 15) 1 64
  { p := max 1 (fld w 31 24), smin := clampNat (fld w 12 6) 1 smax, smax := smax, hys := min 16 (fld w 4 0) }

/-- The members of a set that rank first by load, then by id. -/
def rankMembers (load : SMap Nat) (ps : List Nat) : List Nat :=
  sortBy (fun (a b : Nat) =>
    let x := SMap.get zeroAt load a
    let y := SMap.get zeroAt load b
    decide (x < y) || (x == y && decide (a < b))) ps

/-- The new set of one expert, and the loads after it. -/
def revExpert (k : RevLimits) (u : Nat) (ms old : List Nat) (d : Nat) (load : SMap Nat) : List Nat × SMap Nat :=
  let hi := min k.smax ms.length
  let want := clampNat ((d + u - 1) / u) k.smin hi
  let n := old.length
  let gap := (want - n) + (n - want)
  let sz := if gap * 16 ≤ n * k.hys then clampNat n k.smin hi else want
  let keep := old.filter (fun p => ms.contains p)
  let new := if sz ≤ keep.length then (rankMembers load keep).take sz
    else keep ++ (rankMembers load (ms.filter (fun p => !keep.contains p))).take (sz - keep.length)
  let share := (d + sz - 1) / sz
  (new.foldl (fun a p => insertAsc p a) [], new.foldl (fun m p => SMap.set zeroAt m p (SMap.get zeroAt m p + share)) load)

/-- Experts in descending demand, ties broken by ascending id. -/
def demandOrder (ds : List Nat) : List (Nat × Nat) :=
  sortBy (fun (a b : Nat × Nat) => decide (b.1 < a.1) || (a.1 == b.1 && decide (a.2 < b.2))) ds.zipIdx

/-- One layer of R241: demands and old sets by expert. -/
def revLayer (k : RevLimits) (ms : List Nat) (ds : List Nat) (olds : List (List Nat)) : List (List Nat) :=
  let u := max 1 ((sumNat ds + ms.length * k.p - 1) / (ms.length * k.p))
  let r := (demandOrder ds).foldl (fun (acc : List (Nat × List Nat) × SMap Nat) (c : Nat × Nat) =>
    let (new, load) := revExpert k u ms (olds.getD c.2 []) c.1 acc.2
    ((c.2, new) :: acc.1, load)) ([], [])
  olds.mapIdx (fun e _ => ((r.1.find? (fun p => p.1 == e)).map (·.2)).getD [])

/-- R241: the new roster from the reduced demand, by layer and expert. -/
def RosterVal.revise (v : RosterVal) (k : RevLimits) (lqf epoch : Nat) (lost : List Nat) (ds : List (List Nat)) : RosterVal :=
  let ms := v.members.filter (fun p => !lost.contains p)
  { epoch := epoch, lqf := lqf, act := 0, members := ms
    sets := v.sets.mapIdx (fun l es => revLayer k ms (ds.getD l []) es) }

/-! ### What the ROSTER registers show -/

/-- LEADER, MEMBERS and DIGEST follow the active roster. -/
def State.rosterStatus (s : State) : State :=
  let s1 := (s.put F.rosterStatusMembers s.members.length).put F.rosterStatusLeader (b2n s.isLeader)
  if s1.get F.rosterEpochStaged = 0 then s1.setWord R.rosterDigest (wordAt (s1.rosterHdr s1.activeCopy) 4) else s1

/-- A running revision is abandoned (R240, R246, R251). -/
def State.dropRev (s : State) : State :=
  match s.roster.rev with
  | none => s
  | some _ => ((({ s with swarm := { s.swarm with keeper := [] } }).updRoster (fun r => { r with rev := none })).inc
      R.rosterAbortCnt 1).put F.rosterStatusPhase 1

/-- A committed revision is cancelled (R246). -/
def State.cancelCommit (s : State) : State :=
  if s.get F.rosterEpochStaged = 0 then s
  else (((s.put F.rosterEpochStaged 0).setWord R.rosterActStep 0).inc R.rosterAbortCnt 1).put F.rosterStatusPhase 1

/-- A roster in a copy becomes active. ROSTER_ACT_STEP reads 0 while no roster is staged (DESIGN CHOICE, assumption row 96). -/
def State.activate (s : State) (copy epoch : Nat) : State :=
  let s1 := ((s.put F.rosterStatusCopy copy).put F.rosterEpochActive epoch).put F.rosterStatusPhase 1
  ((s1.put F.rosterEpochStaged 0).setWord R.rosterActStep 0).rosterStatus

/-- The package becomes a member of a fleet roster held in a copy (R240, R430). -/
def State.becomeMember (s : State) (copy epoch : Nat) : State :=
  let s1 := (s.put F.bootStageMember 1).activate copy epoch
  let s2 := (s1.disarm tmJoin).arm tmRev s1.revSeconds
  s2.updRoster (fun r => { r with
    asking := false, askDue := false, ackStep := none, got := 0, total := 0, joinFailed := false, cutOff := false, unreach := [] })

/-- Members other than this package. -/
def State.peers (s : State) : List Nat := s.members.filter (fun p => p != s.self)

/-- The packages of the dispatch domain that a live link reaches. -/
def State.reachablePkgs (s : State) : List Nat :=
  (List.range 512).filter (fun p => p != s.self && s.reachable (s.cmidOf p))

end Sys2Proof.Machine
end

