-- ==== Sys2Proof/Machine/RosterStep.lean ====
section
/-! DEFINITION. Machine/RosterStep.lean: what a step boundary does to the roster (R246, R249, R255, R430, R433), the leader's
part (R240, R249), entry to fleet mode (R248, R427), and the effects of a lost package (R252). -/

namespace Sys2Proof.Machine

/-! ### Change rosters (R246, R247) -/

/-- Packages departed or named lost in the step (A14). -/
def AskCnt.addLosses (c : AskCnt) (ps : List Nat) : AskCnt :=
  { c with losses := ps.foldl (fun l p => if l.contains p then l else l ++ [p]) c.losses }

/-- R246 steps 1 and 2: the change roster of the boundary into step x, when it has one. -/
def State.changeRoster (s : State) (x : Nat) : State :=
  let ms := s.members
  let gone := s.goneAt ms x
  let come := s.comeAt ms x
  if gone.isEmpty && come.isEmpty then s
  else
    let (v, s0) := s.takeRoster s.activeCopy
    let w := v.change x gone come
    let copy := 1 - s.activeCopy
    let isLoss := gone.any (fun p => s.roster.departs.any (fun d => d.pkg == p && d.loss))
    let s1 := (s0.cancelCommit.dropRev).writeRoster copy w
    let s2 := s1.activate copy w.epoch
    let s3 := if gone.isEmpty then s2 else s2.inc R.rosterLossCnt 1
    let s4 := s3.updCnt (fun c => { c.addLosses gone with lossFlag := c.lossFlag || isLoss })
    s4.updRoster (fun r => { r with
      departs := r.departs.filter (fun d => !gone.contains d.pkg)
      joiners := r.joiners.filter (fun j => after 32 j.step x)
      lost := r.lost.filter (fun p => !gone.contains p)
      joined := !come.isEmpty })

/-- R246 step 3, R244: a committed revision whose sa has come becomes active. -/
def State.activateStaged (s : State) (x : Nat) : State :=
  if s.stagedAt x then (s.activate (1 - s.activeCopy) (s.get F.rosterEpochStaged)).inc R.rosterRevCnt 1 else s

/-! ### The roster a joiner will need (R249) -/

/-- One boundary of the forecast. -/
def State.forecastStep (s : State) (stagedV : Option (Nat × RosterVal)) (v : RosterVal) (y : Nat) : RosterVal × Bool :=
  let gone := s.goneAt v.members y
  let come := s.comeAt v.members y
  if !(gone.isEmpty && come.isEmpty) then (v.change y gone come, true)
  else match stagedV with
    | some (sa, w) => if sa = y then (w, false) else (v, false)
    | none => (v, false)

/-- The roster active after the boundary into step x + k, from what the leader knows at x. -/
def State.forecast (s : State) (x : Nat) : Nat → RosterVal × Option (Nat × RosterVal)
  | 0 =>
    ((s.readRoster s.activeCopy).1,
      if s.get F.rosterEpochStaged = 0 then none
      else some (s.num R.rosterActStep, (s.readRoster (1 - s.activeCopy)).1))
  | k + 1 =>
    let (v, st) := s.forecast x k
    let (w, cut) := s.forecastStep st v (seqAdd x (k + 1))
    (w, if cut then none else st)

/-- ROSTER_XFER messages of at most 64 KiB each, in ascending offset. -/
def State.sendXfers (s : State) (dest epoch : Nat) (bs : List Byte) : State :=
  (chunksOf 65536 bs.length bs).zipIdx.foldl (fun t p => t.sendRoster dest opXfer epoch (65536 * p.2) bs.length p.1) s

/-- The copies that a forecast rests on are read (R234). -/
def State.forecastReads (s : State) : State :=
  let s1 := (s.takeRoster s.activeCopy).2
  if s.get F.rosterEpochStaged = 0 then s1 else (s1.takeRoster (1 - s.activeCopy)).2

/-- R249: the leader admits the JOIN_REQs it holds at the boundary into step x; JOIN_ACK goes to the members, but for lost
ones (R252), and to the joiner. DESIGN CHOICE (assumption row 96): where not all fit under 512 members, those of the lowest package
ids are admitted, and the other requests are forgotten. -/
def State.admitJoins (s : State) (x : Nat) : State :=
  if !s.isLeader then s.updRoster (fun r => { r with reqs := [] })
  else
    let known := fun (p : Nat) => s.members.contains p || s.roster.joiners.any (fun j => j.pkg == p)
    let room := 512 - s.members.length - s.roster.joiners.length
    let new := ((s.roster.reqs.filter (fun p => !known p)).foldl (fun a p => insertAsc p a) []).take room
    let e := seqAdd x 4
    if new.isEmpty then s.updRoster (fun r => { r with reqs := [] })
    else
      let s1 := s.updRoster (fun r => { r with reqs := [], joiners := r.joiners ++ new.map (fun p => ⟨p, e, 0⟩) })
      let v := (s1.forecast x 4).1
      let s2 := s1.forecastReads.updRoster (fun r => { r with joiners := r.joiners.map (fun j => if j.step = e then { j with epoch := v.epoch } else j) })
      new.foldl (fun t p =>
        (((t.castRoster s2.peers opJoinAck v.epoch e p).sendRoster p opJoinAck v.epoch e p []).sendXfers
          p v.epoch v.bytes)) s2

/-! ### The revision sequence on the leader (R240) -/

/-- ROSTER_TIMING and ROSTER_LEAD_STEPS with their conversions. -/
def State.revGap (s : State) : Nat := max 1 (s.eff F.rosterTimingRevGap)
def State.voteSteps (s : State) : Nat := max 1 (s.eff F.rosterTimingVoteSteps)
def State.leadSteps (s : State) : Nat := max 4 (s.get F.rosterLeadStepsLead)

/-- A revision runs from REV_START on; `late`: it came after the end of step sw. -/
def State.beginRev (s : State) (sw epoch : Nat) (late : Bool) : State :=
  ({ s with swarm := { s.swarm with keeper := [] } }.updRoster (fun r => { r with
    rev := some { sw := sw, epoch := epoch, snap := none, late := late, limits := 0, quota := 0, digest := none,
                  voted := false, votes := [], lost := [] } })).put F.rosterStatusPhase (if late then 3 else 2)

/-- Step sw has ended here. -/
def State.stepOver (s : State) (sw : Nat) : Bool :=
  before 32 sw s.curSeq || (s.curSeq == sw && (s.step.ended || !s.step.inProg))

/-- A member takes part in the revision of a REV_START: one that still runs here, whose REV_ABORT was lost or which a join has
overtaken, is abandoned for it (assumption row 108). -/
def State.joinRev (s : State) (sw epoch : Nat) : State := s.dropRev.beginRev sw epoch (s.stepOver sw)

/-- A REV_START that was held for its epoch begins at the boundary that reaches it. -/
def State.startHeldRev (s : State) : State :=
  match s.roster.startHeld with
  | none => s
  | some (sw, e) =>
    let next := next16 (s.get F.rosterEpochActive)
    if after 16 e next then s
    else
      let s1 := s.updRoster (fun r => { r with startHeld := none })
      if e = next then s1.joinRev sw e else s1

/-- ACT_STEP of a staged header is written (R244); a header that fails its check is left as it is (R234). -/
def State.writeActStep (s : State) (copy sa : Nat) : State :=
  let (s1, ue) := s.readMeta .keeper 0 (rosterBase copy) 128
  let h := s.rosterHdr copy
  if ue || !hdrOk s.modelLayers h then s1.rosterBad
  else s1.writeAt .keeper 0 (rosterBase copy) (mkRosterHdr (fld (wordAt h 0) 15 0) (fld (wordAt h 1) 7 0) sa (fld (wordAt h 3) 8 0)
    (wordAt h 4).toNat (hdrMembers h))

/-- REV_COMMIT takes effect on a member (R244). -/
def State.takeCommit (s : State) (epoch sa digest : Nat) : State :=
  match s.roster.rev with
  | some r =>
    if r.digest = some digest && r.epoch == epoch && after 16 epoch (s.get F.rosterEpochActive) then
      let s1 := (s.writeActStep (1 - s.activeCopy) sa).updRoster (fun r => { r with rev := none })
      let s2 := (((s1.put F.rosterEpochStaged epoch).setNum R.rosterActStep sa).put F.rosterStatusPhase 5).setNum
        R.rosterDigest digest
      s2.updCnt (fun c => { c with stagedFlag := true })
    else s.inc R.rosterLateCnt 1
  | none => s.inc R.rosterLateCnt 1

/-- R240 steps 5 and 6 at the boundary into step x. DESIGN CHOICE (assumption row 96): of several reasons to abort, REV_ABORT names the
first of a late vote, differing digests and missing votes. -/
def State.closeRev (s : State) (x : Nat) : State :=
  match s.roster.rev with
  | none => s
  | some r =>
    if !s.isLeader then s
    else
      let ready := r.votes.filter (fun v => v.2.1)
      let differ := match ready with
        | [] => false
        | v :: vs => vs.any (fun w => w.2.2 != v.2.2)
      let all := s.members.all (fun p => r.votes.any (fun v => v.1 == p))
      let stop := fun (code : Nat) => (s.castRoster s.peers opRevAbort r.epoch code 0).dropRev
      if r.votes.any (fun v => !v.2.1) then stop 1
      else if differ then stop 2
      else match r.digest with
        | some d =>
          if all then
            let sa := seqAdd x s.leadSteps
            (s.castRoster s.peers opRevCommit r.epoch sa d).takeCommit r.epoch sa d
          else if after 32 x (seqAdd r.sw s.voteSteps) then stop 3 else s
        | none => if after 32 x (seqAdd r.sw s.voteSteps) then stop 3 else s

/-- R240 step 1, R249: the leader opens a revision at the boundary into step x; after a join it does so also where a revision already
runs, which is abandoned for it. -/
def State.openRev (s : State) (x : Nat) (afterJoin : Bool) : State :=
  let due := s.roster.startDue && s.eff F.rosterCtlRevEn == 1 && s.roster.rev.isNone
  let s1 := s.updRoster (fun r => { r with startDue := false })
  if s.isLeader && (due || afterJoin) && s.get F.rosterEpochStaged == 0 then
    let sw := seqAdd x s.revGap
    let e := next16 (s.get F.rosterEpochActive)
    (s1.castRoster s1.peers opRevStart e sw 0).joinRev sw e
  else s1

/-! ### Entry to fleet mode (R248, R427, R430) -/

/-- The founder's roster at the boundary into step x (R248, R434). -/
def State.found (s : State) (x : Nat) : State :=
  let epoch := if s.job.savedEpoch = 0 then 1 else next16 (next16 s.job.savedEpoch)
  let lqf := s.job.savedLqf.getD (s.get F.rosterQuotaLqf)
  let v : RosterVal := { epoch := epoch, lqf := lqf, act := x, members := [s.self]
                         sets := (List.range s.modelLayers).map (fun l => (List.range (s.layerN l)).map (fun _ => [s.self])) }
  (s.writeRoster s.activeCopy v).becomeMember s.activeCopy epoch

/-- JOIN_REQ to every reachable package (R248, R427). -/
def State.requestJoin (s : State) : State :=
  let ps := s.reachablePkgs
  if ps.isEmpty then s
  else
    let s1 := ps.foldl (fun t p => (t.sendRoster p opJoinReq 0 0 s.self []).inc R.bootJoinCnt 1) s
    (s1.updRoster (fun r => { r with asking := true, askDue := false })).arm tmJoin (max 1 (s.get F.bootJoinRetryMs))

/-- R427 at the boundary into step x. A package that was isolated joins again, a founder too (R433, assumption row 102). -/
def State.seekFleet (s : State) (x : Nat) : State :=
  if s.member || s.get F.bootStageStage != 3 || !s.flag F.bootCtlFleet || s.jobState != jsRunning ||
      s.get F.rosterStatusDrain != 0 then s
  else if s.flag F.rosterCtlFounder && !s.roster.cutOff then s.found x
  else if s.roster.ackStep.isSome || (s.roster.asking && !s.roster.askDue) then s
  else s.requestJoin

/-- A join fails (R249, R429, R430): it is counted, LOSS names the joiner, and requests begin again. -/
def State.joinFails (s : State) (e : Nat) : State :=
  let s1 := s.inc R.bootJoinFailCnt 1
  let s2 := s1.reachablePkgs.foldl (fun t p => t.sendRoster p opLoss 0 e s.self []) s1
  s2.updRoster (fun r => { r with asking := false, askDue := false, ackStep := none, got := 0, total := 0, joinFailed := true })

/-- R430 at the acceptance of Recipe x; a draining package joins no more (R255). The whole copy is read, and every record of it that
fails is counted (R234). -/
def State.ownJoin (s : State) (x : Nat) : State :=
  match s.roster.ackStep with
  | none => s
  | some e =>
    if s.member || e != x || s.get F.rosterStatusDrain != 0 then s
    else
      let copy := s.activeCopy
      let h := s.rosterHdr copy
      let whole := 0x1000 + 131072 * s.modelLayers
      if s.roster.got != whole || s.roster.total != whole then s.joinFails e
      else
        let s1 := (s.takeRoster copy).2
        if (s.readRoster copy).2 ≠ 0 then s1.joinFails e
        else if (hdrMembers h).contains s.self && (wordAt h 4).toNat = s.rosterDigestOf copy then
          (s1.becomeMember copy (fld (wordAt h 0) 15 0)).updRoster (fun r => { r with joined := true })
        else s1.joinFails e

/-! ### Isolation and drain (R255, R433) -/

/-- A packet of a former peer goes, with the Hive space that it alone still holds; one not yet taken is counted as R425 says. -/
def State.dropPeerPkt (s : State) (n v i : Nat) : State :=
  match (s.rxq n v)[i]? with
  | none => s
  | some p =>
    if p.relay.isSome then s
    else match p.taken with
      | none => (s.inc R.bootIslandDropCnt 1).rxDiscard n v i
      | some (pay, slots) =>
        if p.released then s.rxDiscard n v i
        else
          let s1 := (match pay with
            | some hd => s.release hd (n / 2) slots.head?
            | none => s).freeSlots slots
          (if v = 2 ∧ p.counted = false then s1.setHolding (n / 2) ((s1.cluster (n / 2)).holding - 1) else s1).rxDiscard n v i

/-- Copies of former peers that wait for a tile go. -/
def State.dropPeerCopies (s : State) (c : Nat) : State :=
  let gone := (s.cluster c).appendQ.filter (fun x => !x.loc)
  gone.foldl (fun t x => match x.slot with
    | some i => (t.release x.h c (some i)).freeSlot i
    | none => t.release x.h c none) (s.updClu c (fun k => { k with appendQ := k.appendQ.filter (·.loc) }))

/-- Tiles that have not left go with their rows, which are former peers' since the own step has ended. -/
def State.dropPeerTiles (s : State) : State :=
  let gone := s.tiles.live.filter (fun t => !t.sent)
  let s1 := gone.foldl (fun u t => t.rows.foldl (fun u r =>
    (u.release (u.slotHandle r.slot) (8 * t.die) (some r.slot)).freeSlot r.slot) u) s
  { s1 with
    tiles := { live := s1.tiles.live.filter (·.sent)
               gens := gone.foldl (fun g t => SMap.set zeroAt g t.idx ((t.gen + 1) % 256)) s1.tiles.gens }
    ports := s1.ports.map (fun p => { p with tiles := [], passed := updAt p.passed 1 (fun _ => []) }) }

/-- What an isolated package still holds of its former peers goes with its membership: it runs the next step for itself alone and
sends nothing on VC1 to VC3: what waits to leave goes, with the Hive space that it holds (R425, R433; assumption row 102). -/
def State.dropPeers (s : State) : State :=
  let s1 := (List.range s.nLinks).foldl (fun s n => ([1, 2, 3] : List Nat).foldl (fun s v =>
    (List.range (s.rxq n v).length).reverse.foldl (fun s i => s.dropPeerPkt n v i) s) s) s
  let s2 := ((List.range s1.nClusters).foldl State.dropPeerCopies s1).dropPeerTiles
  s2.hushedPkts.foldl State.dropPkt s2.hushLinks

/-- R433 at the next boundary: the roster goes, the demand counters stay (R238), and a drain is past its leave (R255). -/
def State.isolate (s : State) : State :=
  if !s.roster.isolated then s
  else if !s.member then s.updRoster (fun r => { r with isolated := false })
  else (((s.dropPeers.rosterReset.drainLeft).inc R.bootIsolateCnt 1).updCnt (fun c => { c with lossFlag := true })).updRoster (fun r =>
    { r with demand := s.roster.demand, cutOff := true })

/-- R255 state 2: LEAVE at the boundary into step x, with the job's end at its effective step. -/
def State.drainLeave (s : State) (x : Nat) : State :=
  if s.get F.rosterStatusDrain != 1 || !s.member then s
  else
    let e := seqAdd x s.leadSteps
    let s1 := (s.castRoster s.peers opLeave 0 e s.self).put F.rosterStatusDrain 2
    match s.job.endSeq with
    | some _ => s1
    | none =>
      (s1.updJob (fun j => { j with endSeq := some (seqAdd e (2 ^ 32 - 1)), endReason := 6, yield := false })).put
        F.jobStatusEndPending 1

/-! ### The boundary (R246) -/

/-- The roster's part of the boundary into step x. -/
def State.rosterBoundary (s : State) (x : Nat) (seek : Bool) : State :=
  let s1 := s.isolate
  let s2 := if s1.member then
      let again := s1.roster.joined
      let t := (((s1.updRoster (fun r => { r with joined := false })).changeRoster x).activateStaged x).startHeldRev
      (((t.closeRev x).openRev x again).admitJoins x).drainLeave x
    else s1
  let s3 := s2.ownJoin x
  if seek then s3.seekFleet x else s3

/-! ### Keepers' contributions (R240 step 3, R336) -/

/-- In step sw + 1 the Keepers contribute min(D, 2^22 − 1) of every expert; a late member contributes zeros. -/
def State.revContribute (s : State) : State :=
  match s.roster.rev with
  | none => s
  | some r =>
    if s.revTurn r then
      let d := r.snap.getD []
      let vals := s.routedExperts.map (fun k => min (SMap.get zeroAt d (1024 * k.1 + k.2)) (2 ^ 22 - 1))
      let parts := chunksOf keeperElems vals.length vals
      parts.zipIdx.foldl (fun t p => t.keeperChunk s.stepSeq p.2 parts.length p.1.length p.1) s
    else s

/-- The reduced demand by layer and expert, when every chunk of it has arrived. -/
def State.reducedDemand (s : State) : Option (List (List Nat)) :=
  let n := ceilDiv s.routedExperts.length keeperElems
  let parts := (List.range n).map (fun c => (s.swarm.keeper.find? (fun k => k.1 == c)).map (·.2))
  if parts.all (·.isSome) then
    let all := parts.flatMap (fun p => p.getD [])
    some (((List.range s.modelLayers).foldl (fun (acc : List (List Nat) × List Nat) l =>
      let m := s.layerN l
      (acc.1 ++ [acc.2.take m], acc.2.drop m)) ([], all)).1)
  else none

/-- A vote reaches the leader. -/
def State.takeVote (s : State) (p : Nat) (ready : Bool) (digest : Nat) : State :=
  s.updRoster (fun r => { r with rev := r.rev.map (fun v =>
    if v.votes.any (fun w => w.1 == p) then v else { v with votes := v.votes ++ [(p, ready, digest)] }) })

/-- REV_VOTE to the leader: a Keeper's request, which wakes the engine (R443 source 8). -/
def State.vote (s : State) (epoch : Nat) (ready : Bool) (digest : Nat) : State :=
  let s1 := ((s.startWake 8).updRoster (fun r => { r with rev := r.rev.map (fun v => { v with voted := true }) })).put F.rosterStatusPhase 4
  if s1.isLeader then s1.takeVote s1.self ready digest
  else s1.sendRoster (s1.members.headD 0) opRevVote epoch (b2n (!ready)) digest []

/-- ROSTER_COMPUTE_DONE: the new roster stands in the inactive copy, and the member votes (R240 step 4). -/
def State.computeDone (s : State) : State :=
  match s.roster.rev with
  | none => s
  | some r =>
    if r.voted || !s.member || !s.keepersOn then s
    else if r.late then s.vote r.epoch false 0
    else match r.snap, s.reducedDemand with
      | some _, some ds =>
        let (v, s0) := s.takeRoster s.activeCopy
        let w := v.revise (revLimits r.limits) r.quota r.epoch r.lost ds
        let s1 := s0.writeRoster (1 - s.activeCopy) w
        (s1.updRoster (fun x => { x with rev := x.rev.map (fun y => { y with digest := some w.digest }) })).vote r.epoch true
          w.digest
      | _, _ => s

/-! ### A lost package (R252, R254) -/

/-- Packets of this package bound for another that have not started are dropped (R252). -/
def State.dropBound (s : State) (dst : Nat) : State :=
  let mine := fun (p : TxPkt) => p.relay.isNone && p.sent == 0 && p.dst == dst && !p.mg
  let out := s.links.flatMap (fun l => l.tx.q.flatMap (fun q => q.filter mine)) ++ s.limbo.filter mine
  let s1 := { s with
    links := s.links.map (fun l => { l with tx := { l.tx with q := l.tx.q.map (fun q => q.filter (fun p => !mine p)) } })
    limbo := s.limbo.filter (fun p => !mine p) }
  out.foldl State.dropPkt s1

/-- The liveness effects of a loss (R252). -/
def State.loseLive (s : State) (pkg : Nat) : State :=
  let s1 := s.updRoster (fun r => { r with lost := insertAsc pkg r.lost })
  let s2 := ((s1.loseSlots pkg).dropBound (s1.cmidOf pkg)).dropRetained (s1.cmidOf pkg)
  let s3 := s2.halvesInOrder.foldl (fun t k => (t.rxCheck k.1 k.2).closeTails k.1 k.2) s2
  let s4 := (s3.swarm.chunks.filter (fun c => !c.final)).foldl (fun t c => t.lossChunk c.key) s3
  (s4.swarmSettle.barExclude pkg).barGo

/-- A package is lost from now on, with its departure at an effective step; a running revision is abandoned. -/
def State.losePkg (s : State) (pkg eff : Nat) : State :=
  let late := !after 32 eff s.curSeq
  let s1 := s.updRoster (fun r => { r with seen := r.seen ++ [(pkg, eff)], departs := r.departs ++ [⟨pkg, eff, true⟩] })
  let s2 := (if late then s1.inc R.rosterLateCnt 1 else s1).dropRev
  (s2.updCnt (fun c => { c.addLosses [pkg] with lossFlag := true })).loseLive pkg

end Sys2Proof.Machine
end

