-- ==== Sys2Proof/Machine/RosterMsg.lean ====
section
/-! DEFINITION. Machine/RosterMsg.lean: roster control messages as they arrive (R239 to R251, R428, R429), and the roster's own
timers (R240, R250, R427, R433). -/

namespace Sys2Proof.Machine

/-! ### Receiving (R239) -/

/-- The oldest VC0 packet of link n, when it is a roster control message of an operation. -/
def State.rosterHead (s : State) (n op : Nat) : Option (Nat × RxPkt) :=
  match s.ctlHead n with
  | some (i, p) => if !p.mg && p.type == 5 && W8.sop (p.hdr 0) == op then some (i, p) else none
  | none => none

/-- The fields of a roster control header lie in the ranges of their operation; one that its table gives as 0 is 0 (R239). -/
def rosterArgs (op : Nat) (h : W8) : Bool :=
  let epoch0 := fld h.w2 31 16 == 0
  let arg0 := h.w3.toNat
  let one := h.w6 == 0
  if op = opRevStart then one
  else if op = opRevVote then decide (arg0 ≤ 1) && (arg0 == 0 || one)
  else if op = opRevCommit then true
  else if op = opRevAbort then decide (1 ≤ arg0 ∧ arg0 ≤ 3) && one
  else if op = opLoss ∨ op = opLeave then epoch0
  else if op = opJoinReq then epoch0 && arg0 == 0
  else if op = opJoinAck then true
  else decide (arg0 < h.w6.toNat) && decide (h.w6.toNat ≤ 0x4000000)

/-- R239: the header passes its check. -/
def State.rosterMsgOk (s : State) (op : Nat) (p : RxPkt) : Bool :=
  let h := p.hdr 0
  let len := W8.tlen h
  h.ok && p.nhdr == 1 && fld h.w0 27 20 == 0 && fld h.w2 9 1 == s.self && p.bytes.length == 32 + 16 * len &&
    rosterArgs op h && (if op = opXfer then decide (1 ≤ len ∧ len ≤ 4096) else len == 0)

/-- Take a roster control message. A package that is in no roster acts on JOIN_ACK and ROSTER_XFER alone and counts every other
packet as dropped, whatever its checks would say (R425); elsewhere one that fails is discarded and counted (R239). -/
def State.rosterRx (s : State) (n op : Nat) (f : W8 → List Byte → State → State) : State :=
  match s.rosterHead n op with
  | none => s
  | some (i, p) =>
    let s1 := s.rxRemove n 0 i
    if !s1.member && op != opJoinAck && op != opXfer then s1.inc R.bootIslandDropCnt 1
    else if p.pab then s1
    else if !s.rosterMsgOk op p then s1.inc R.rosterRecErrCnt 1
    else f (p.hdr 0) (p.bytes.drop 32) s1

def W8.repoch (h : W8) : Nat := fld h.w2 31 16
def W8.rarg0 (h : W8) : Nat := h.w3.toNat
def W8.rpkg (h : W8) : Nat := fld h.w6 8 0

/-- REV_START (R240 step 2). One of an epoch that this package reaches only at a boundary it has not come to, since the leader is a
boundary ahead, begins at that boundary (assumption row 108). -/
def State.takeRevStart (s : State) (h : W8) : State :=
  let e := W8.repoch h
  let next := next16 (s.get F.rosterEpochActive)
  if e = next then (s.joinRev (W8.rarg0 h) e).revContribute
  else if after 16 e next then s.updRoster (fun r => { r with startHeld := some (W8.rarg0 h, e) })
  else s

def State.takeVoteMsg (s : State) (h : W8) : State :=
  match s.roster.rev with
  | some r =>
    if s.isLeader && r.epoch == W8.repoch h then s.takeVote (W8.tsrc h) (W8.rarg0 h == 0) h.w6.toNat else s
  | none => s

def State.takeAbort (s0 : State) (h : W8) : State :=
  let s := s0.updRoster (fun r => { r with startHeld := if r.startHeld.any (fun x => x.2 == W8.repoch h) then none else r.startHeld })
  match s.roster.rev with
  | some r => if r.epoch == W8.repoch h then s.dropRev else s
  | none => s

/-- A member, or a joiner of a JOIN_ACK that this package holds (R251). -/
def State.knownPkg (s : State) (p : Nat) : Bool := s.members.contains p || s.roster.joiners.any (fun j => j.pkg == p)

def srcSelfLoss : Nat := 0x0E

/-- LOSS (R251). -/
def State.takeLoss (s : State) (h : W8) : State :=
  let pkg := W8.rpkg h
  let eff := W8.rarg0 h
  if pkg = s.self then (if s.roster.joinFailed then s else s.err srcSelfLoss 0 none)
  else if s.roster.seen.contains (pkg, eff) || !s.knownPkg pkg then s
  else ((s.castRoster (s.peers.filter (fun p => p != W8.tsrc h && p != pkg)) opLoss 0 eff pkg)).losePkg pkg eff

/-- LEAVE (R250, R254). -/
def State.takeLeave (s : State) (h : W8) : State :=
  let pkg := W8.rpkg h
  let eff := W8.rarg0 h
  if !s.knownPkg pkg || pkg == s.self || s.roster.departs.any (fun d => d.pkg == pkg && d.step == eff) then s
  else
    let s1 := s.updRoster (fun r => { r with departs := r.departs ++ [⟨pkg, eff, false⟩] })
    if !after 32 eff s.curSeq then s1.inc R.rosterLateCnt 1 else s1

/-- JOIN_REQ (R428). -/
def State.takeJoinReq (s : State) (h : W8) : State :=
  let pkg := W8.rpkg h
  if s.members.contains pkg then s else s.updRoster (fun r => { r with reqs := insertAsc pkg r.reqs })

/-- The package has asked to join, or holds a JOIN_ACK, or its join has failed. -/
def State.isJoiner (s : State) : Bool := !s.member && (s.roster.asking || s.roster.ackStep.isSome || s.roster.joinFailed)

/-- JOIN_ACK at the joiner (R429). The slot of the step that is awaited from then on is read at the next poll (R377). One that
repeats the step and epoch already held leaves the transfer as it stands. -/
def State.takeOwnAck (s : State) (e epoch : Nat) : State :=
  if !s.isJoiner then s
  else
    let same := s.roster.ackStep == some e && s.roster.ackEpoch == epoch
    let s1 := (s.setNum R.bootJoinSeq e).disarm tmJoin
    let s2 := s1.updRoster (fun r => { r with asking := false, askDue := false, ackStep := some e, ackEpoch := epoch, joinFailed := false
                                              got := if same then r.got else 0, total := if same then r.total else 0 })
    if !s.job.anyAccepted then (if s.nextSeq = e then s2 else s2.awaitSeq e)
    else if after 32 s.nextSeq e then s2.joinFails e
    else s2

/-- JOIN_ACK (R249, R429). -/
def State.takeJoinAck (s : State) (h : W8) : State :=
  let pkg := W8.rpkg h
  let e := W8.rarg0 h
  if pkg = s.self then s.takeOwnAck e (W8.repoch h)
  else if !s.member then s.inc R.bootIslandDropCnt 1
  else if s.roster.joiners.any (fun j => j.pkg == pkg) || s.members.contains pkg then s
  else s.updRoster (fun r => { r with joiners := r.joiners ++ [⟨pkg, e, W8.repoch h⟩] })

/-- ROSTER_XFER at the joiner, in ascending offset (R249). -/
def State.takeXfer (s : State) (h : W8) (body : List Byte) : State :=
  let off := W8.rarg0 h
  if s.member || s.roster.ackStep.isNone || W8.repoch h != s.roster.ackEpoch || off != s.roster.got ||
      decide (0x4000000 < off + body.length) then s
  else (s.writeAt .keeper 0 (rosterBase s.activeCopy + off) body).updRoster (fun r => { r with
    got := r.got + body.length, total := h.w6.toNat })

/-! ### The roster's timers -/

/-- ROSTER_REV expires: re-armed without drift on every member; only the leader acts on it, while REV_EN is 1, and not while a revision runs (R240)
or, DESIGN CHOICE (assumption row 96), while a committed one is pending. -/
def State.revExpiry (s : State) : State :=
  if !s.due tmRev then s
  else if !s.member then s.disarm tmRev
  else
    let s1 := s.rearm tmRev s.revSeconds
    if s1.isLeader && s1.eff F.rosterCtlRevEn == 1 && s1.roster.rev.isNone && s1.get F.rosterEpochStaged == 0 then
      (s1.startWake 4).updRoster (fun r => { r with startDue := true }) else s1

/-- JOIN_RETRY: the request goes out again at the next boundary (R427). -/
def State.joinRetry (s : State) : State :=
  if s.due tmJoin then ((s.startWake 4).disarm tmJoin).updRoster (fun r => { r with askDue := true }) else s

/-- LOSS_US in nanoseconds. -/
def State.lossNs (s : State) : Nat := 1000 * max 1 (s.eff F.rosterTimingLossUs)

/-- A member has had no reachable route for LOSS_US. -/
def State.unreachable (s : State) (p : Nat) : Bool :=
  match SMap.get noneAt s.roster.unreach p with
  | some t => decide (t + s.lossNs ≤ s.chip.now)
  | none => false

/-- LOSS_DETECT (R250): LOSS goes to every member. -/
def State.lossDetect (s : State) (pkg : Nat) : State :=
  if s.member && s.peers.contains pkg && !s.isLost pkg && s.unreachable pkg then
    let eff := seqAdd s.curSeq 2
    (s.castRoster (s.peers.filter (fun p => p != pkg)) opLoss 0 eff pkg).losePkg pkg eff
  else s

/-- ISOLATION (R433): every other member is treated as lost in the step in progress, and its Ask names them (R252). -/
def State.isolation (s : State) : State :=
  if s.member && !s.peers.isEmpty && !s.roster.isolated && s.peers.all (fun p => s.unreachable p) then
    ((s.peers.foldl State.loseLive s).updCnt (fun c => c.addLosses s.peers)).updRoster (fun r => { r with isolated := true })
  else s

/-- Since when each member has had no reachable route, at a tick. -/
def State.noteUnreach (s : State) : State :=
  if !s.member then s
  else s.updRoster (fun r => { r with unreach := s.peers.foldl (fun m p =>
    if s.reachable (s.cmidOf p) then SMap.set noneAt m p none
    else match SMap.get noneAt m p with
      | some _ => m
      | none => SMap.set noneAt m p (some s.chip.now)) r.unreach })

end Sys2Proof.Machine
end

