-- ==== Sys2Proof/Machine/Job.lean ====
section
/-! DEFINITION. Machine/Job.lean: the job commands (R390, R400, R401), the model load (R391 to R394, R399) and the job's
timers (R377, R386, R388). -/

namespace Sys2Proof.Machine

/-! ### Own-side load (R180) -/

/-- The per-token own-side load of one layer. -/
def State.layerLoad (s : State) (l : Nat) : Load :=
  let k := (s.selRec l).k + (s.selRec l).shared
  let hs := hsRowBytes (s.eff F.hiveClassHsfmt) (s.gateRec l).h
  let x := ((Load.zero.addPay (s.chainMode clHs) hs 1).addPay (s.chainMode clDisp) (s.dispBytes l) 1).addPay
    (s.chainMode clRes) (s.resBytes l) k
  { x with us := 1 + 2 * k }

/-- The maximum over the model's layers. -/
def State.modelLoad (s : State) (layers : Nat) : Load :=
  (List.range layers).foldl (fun a l => a.max (s.layerLoad l)) Load.zero

/-! ### The model descriptor (R391, R392) -/

structure Seg where
  addr : Nat
  off : Nat
  len : Nat
  kind : Nat
  deriving DecidableEq, Repr

def segOf (b : List Byte) : Seg :=
  let w := wordAt b
  { addr := (w 0).toNat + 2 ^ 32 * (w 1).toNat, off := (w 2).toNat, len := (w 3).toNat, kind := fld (w 4) 3 0 }

/-- Base and size of a target area. -/
def State.area (s : State) (kind : Nat) : Option (Nat × Nat) :=
  if kind = 1 then some (0, 0x2000)
  else if kind = 2 then some (selBase, 0x2000)
  else if kind = 3 then some (whiskBase, 0x2000)
  else if kind = 4 then some (rotBase, 0xA000)
  else if kind = 5 then some (biasBase, 0x100000)
  else if kind = 6 then some (s.hive.layout.gateBase, s.gateSize)
  else none

/-- R392 step 2 for one segment. -/
def State.segOk (s : State) (earlier : List Seg) (g : Seg) : Bool :=
  match s.area g.kind with
  | none => false
  | some (_, size) =>
    g.addr % 64 == 0 && g.off % 64 == 0 && g.len % 64 == 0 && decide (64 ≤ g.len) && decide (g.off + g.len ≤ size) &&
      earlier.all (fun e => e.kind != g.kind || decide (e.off + e.len ≤ g.off) || decide (g.off + g.len ≤ e.off))

/-- The first bad segment: of two that overlap, the later one (DESIGN CHOICE, assumption row 96). -/
def State.badSeg (s : State) (gs : List Seg) : Option Nat :=
  (List.range gs.length).find? (fun i => match gs[i]? with
    | some g => !s.segOk (gs.take i) g
    | none => false)

/-- A load fails (R393). -/
def State.loadFails (s : State) (code layer seg : Nat) : State :=
  (s.setWord R.jobLoadErr (at_ 28 code ||| at_ 19 layer ||| at_ 0 seg)).endJob 5

/-- Step 3: a segment's data, or none where its read failed. -/
def segData (d : LoadData) (i : Nat) (g : Seg) : Option (List Byte) :=
  match d.segs.getD i none with
  | some bs => if g.len ≤ bs.length then some (bs.take g.len) else none
  | none => none

/-- Each segment is read from its host address and copied, in entry order; the index of the first whose read fails. -/
def State.copySegs (s : State) (d : LoadData) : List (Seg × Nat) → State × Option Nat
  | [] => (s, none)
  | (g, i) :: gs =>
    let s := s.dmaRead g.addr g.len
    match segData d i g with
    | none => (s, some i)
    | some bs =>
      match s.area g.kind with
      | some (base, _) =>
        (s.writeAt .keeper 0 (base + g.off) bs).copySegs d gs
      | none => (s, some i)

/-! ### The save area on RESUME (R399) -/

structure Save where
  next : Nat
  layers : Nat
  epoch : Nat
  scale : List Byte
  streams : List (List Byte)
  roster : List Byte
  deriving DecidableEq, Repr

/-- R399's checks; none where one fails. -/
def saveOf (layers : Nat) (b : List Byte) : Option Save :=
  let w := wordAt b
  let n := fld (w 2) 14 0
  let v5 := (w 5).toNat
  let streams := (List.range n).map (fun i => slice b (0x1000 + 256 * i) 256)
  let roster := if v5 = 0 then [] else slice b 0x401000 v5
  let scale := slice b 0x100 1024
  let tok := sumNat (streams.map (fun e => (streamOf e).tok))
  let whole := if v5 = 0 then 0x1000 + 256 * n else 0x401000 + v5
  if decide (whole ≤ b.length) && recOk 16 (b.take 64) && w 14 == crc32c (scale ++ streams.flatten ++ roster) &&
      fld (w 3) 8 0 == layers && decide (n ≤ 16384) && streams.all (recOk 64) && decide (tok ≤ 131072) then
    some ⟨(w 1).toNat, layers, fld (w 4) 15 0, scale, streams, roster⟩
  else none

/-- The save area is read from JOB_SAVE: its header, then the parts that the header names (R397, R399). -/
def State.readSave (s : State) (b : List Byte) : State :=
  let n := fld (wordAt b 2) 14 0
  let v5 := (wordAt b 5).toNat
  let s1 := (s.dmaRead s.job.saveAt 64).dmaRead (s.job.saveAt + 0x100) 1024
  let s2 := if n = 0 then s1 else s1.dmaRead (s.job.saveAt + 0x1000) (256 * n)
  if v5 = 0 then s2 else s2.dmaRead (s.job.saveAt + 0x401000) v5

/-- The stream entries and the scale table are restored. -/
def State.restore (s : State) (v : Save) : State :=
  let s1 := v.streams.foldl (fun t e => t.writeAt .keeper 0 (streamBase + 256 * fld (wordAt e 0) 13 0) e) s
  let s2 := (List.range 256).foldl (fun t l => t.setWord (R.whiskScale l) (wordAt v.scale l &&& 0xFFFF#32)) s1
  (s2.awaitSeq v.next).updJob (fun j => { j with
    savedEpoch := v.epoch, savedLqf := if v.epoch = 0 then none else some (fld (wordAt v.roster 1) 7 0) })

/-! ### The end of a load (R394) -/

/-- The load Ask, and RUNNING in island mode; the load Ask counts as a step boundary (R427). -/
def State.loaded (s : State) (resumed : Bool) : State :=
  let s1 := (s.settleRegs.resetStep).setWord R.jobLoadErr 0
  let seq := seqAdd s1.nextSeq (2 ^ 32 - 1)
  let s2 := s1.writeAsk ⟨seq, 0, true, resumed, false, false, false⟩
  let s3 := (s2.put F.jobStatusState jsRunning).updJob (fun j => { j with
    anyAccepted := false, policy := (s.get F.rasFaultPolicyMode, s.get F.rasFaultPolicyTdMax) })
  (s3.afterAsk).seekFleet s3.nextSeq

/-- Steps 5 and 6 of R392, and R399. -/
def State.finishLoad (s : State) (d : LoadData) (layers : Nat) : State :=
  let s1 := (List.range layers).foldl State.writeCsum s
  let s2 := ((s1.initScales layers).updRoster (fun r => { r with demand := [] })).clearGaps
  let ld := s2.modelLoad layers
  let s3 := s2.updJob (fun j => { j with model := some ⟨layers, ld.ub, ld.uc, ld.us⟩ })
  if !s3.fits ld 1 then s3.loadFails 7 0 0
  else if s3.job.loadKind = 2 then
    match d.save with
    | none => (s3.dmaRead s3.job.saveAt 64 |>.inc R.rasDmaErrCnt 1).loadFails 8 0 0
    | some b =>
      let s4 := s3.readSave b
      match saveOf layers b with
      | some v => (s4.restore v).loaded true
      | none => s4.loadFails 8 0 0
  else if s3.job.loadKind = 1 then (s3.awaitSeq (s3.num R.stepFirstSeq)).loaded false
  else s3.loaded false

/-- MODEL_LOAD_DONE (R392 to R394, R399). -/
def State.modelLoad_ (s : State) (d : LoadData) : State :=
  if s.jobState ≠ jsLoading then s
  else match d.desc with
    | none => (s.inc R.rasDmaErrCnt 1).loadFails 1 0 0
    | some b =>
      let layers := fld (wordAt b 0) 8 0
      let n := fld (wordAt b 1) 10 0
      let segBytes := (b.drop 64).take (32 * n)
      if layers < 1 ∨ 256 < layers ∨ n < 1 ∨ 1024 < n then s.loadFails 1 0 0
      else
        let s := s.dmaRead (s.job.modelAt + 64) (32 * n)
        if segBytes.length < 32 * n ∨ wordAt b 15 ≠ crc32c (b.take 60 ++ segBytes) then s.loadFails 1 0 0
        else
          let gs := (chunksOf 32 n segBytes).map segOf
          match s.badSeg gs with
          | some i => s.loadFails 2 0 i
          | none =>
            match s.copySegs d gs.zipIdx with
            | (s1, some i) => (s1.inc R.rasDmaErrCnt 1).loadFails 3 0 i
            | (s1, none) =>
              match (s1.probeRecords layers).recordsBad layers with
              | some (code, l) => (s1.probeRecords layers).loadFails code l 0
              | none => (s1.probeRecords layers).finishLoad d layers

/-! ### Job commands (R389, R390, R400, R401) -/

/-- The registers that a job takes when it starts, resumes or reloads (R372, R390). -/
def State.takeBases (s : State) (kind : Nat) : State :=
  let j := { s.job with
    ring := s.pair R.stepRingBaseLo, ask := s.pair R.stepAskBaseLo,
    log2 := clampNat (s.get F.stepRingSlotsLog2) 1 8, modelAt := s.pair R.jobModelLo, saveAt := s.pair R.jobSaveLo,
    loadKind := kind, model := none, reads := [], held := none, endSeq := none, yield := false, endReason := 0, after := .nothing,
    anyAccepted := false, savedEpoch := 0, savedLqf := none, loadAt := s.chip.now }
  let s1 := ({ s with job := j }.put F.jobStatusState jsLoading).put F.jobStatusEndPending 0
  s1.dmaRead j.modelAt 64

/-- A command that its state does not allow. -/
def State.cmdIgnored (s : State) : State := s.inc R.jobCmdIgnCnt 1

/-- START and RESUME (R390). -/
def State.jobStart (s : State) (p kind : Nat) : State :=
  if s.jobState != jsIdle || decide (s.get F.bootStageStage < 2) || s.flag F.rasStatusFatal || s.flag F.hiveZeroBusy then
    s.cmdIgnored
  else
    let s0 := s.startWake 5
    let s1 := ((s0.put F.jobIdId (next16 (s0.get F.jobIdId))).put F.jobOwnerValid 1).put F.jobOwnerPort p
    let s2 := ((s1.incF (F.acctJobsStarted p) 1).put F.secZeroClean 0).setWord R.bootJoinSeq 0
    let s3 := (List.range s2.nLinks).foldl (fun t n =>
      if t.linkState n = lsActive then t.keyReq n else t) { s2 with job := Job.reset }
    s3.takeBases kind

/-- RELOAD (R400). -/
def State.jobReload (s : State) : State :=
  if s.jobState != jsFaulted || s.flag F.rasStatusFatal || s.flag F.hiveZeroBusy then s.cmdIgnored
  else (s.startWake 5).takeBases 3

/-- The job ends as ABORT ends it; a partition reset in progress goes on and ends it. -/
def State.abortNow (s : State) : State :=
  if s.flag F.rasStatusPartBusy then
    (s.updJob (fun j => { j with after := .endJob })).zeroising 3
  else s.abortJob 3

/-- ABORT (R401). -/
def State.jobAbort (s : State) : State :=
  if (s.jobState != jsRunning && s.jobState != jsFaulted) || s.flag F.rasStatusFatal then s.cmdIgnored
  else (s.startWake 5).abortNow

/-- A host write of JOB_CTL (R390): a non-zero CMD issues it. -/
def State.jobCtl (s : State) (p v : Nat) : State :=
  let s1 := s.put F.jobCtlCmd v
  if v % 8 = 0 then s1
  else if v % 8 = 1 then s1.jobStart p 1
  else if v % 8 = 2 then s1.jobStart p 2
  else if v % 8 = 3 then s1.jobReload
  else if v % 8 = 4 then s1.jobAbort
  else s1.cmdIgnored

/-! ### The job's timers -/

/-- RECIPE_POLL (R377): the next read starts, whether or not the previous one is done. The Head Keeper issues it, unless it is
halted (R496) or holds a valid Recipe. -/
def State.recipePoll (s : State) : State :=
  if s.stepping && !s.step.inProg && !s.flag F.rasStatusPartBusy && s.job.held.isNone && s.keeperOn 8 && s.due tmPoll then
    s.pollSlot
  else s

def srcDeadline : Nat := 0x11

/-- DEADLINE is raised and counted; before the acceptance of the step that is all (R386). -/
def State.deadlineEarly (s : State) : State := (s.raise evDeadline).inc R.stepDeadlineCnt 1

/-- STEP_DEADLINE_EXPIRY (R386, R387). -/
def State.deadline (s : State) : State :=
  if !s.stepping || s.flag F.rasStatusPartBusy || !s.due tmDeadline then s
  else
    let s1 := s.deadlineEarly
    if !s.step.inProg then s1.disarm tmDeadline
    else
      (((s1.disarm tmDeadline).updCnt (fun c => { c with deadline := true })).startWake 4).err srcDeadline 0 none

/-- JOB_IDLE_TIMEOUT (R388). DESIGN CHOICE (assumption row 96): in ENDING, where R389 names no idle timeout, it has no effect. -/
def State.idleTimeout (s : State) : State :=
  if s.jobState = jsRunning && !s.step.inProg && !s.flag F.rasStatusPartBusy && s.due tmIdle then
    ((s.disarm tmIdle).startWake 4).abortJob 4
  else s

end Sys2Proof.Machine
end

