-- ==== Sys2Proof/Machine/Power.lean ====
section
/-! DEFINITION. Machine/Power.lean: the power states (R439 to R449), what an AON tick does, and the end of a zeroisation pass
(R192, R396, R468). -/

namespace Sys2Proof.Machine

/-! ### Idle conditions (R440) -/

/-- No message is queued for transmit on a die port: no tile, manifest or Swarm message, and no CREDIT that may leave. -/
def State.diePortsQuiet (s : State) : Bool :=
  s.ports.all (fun p => p.tiles.isEmpty && p.mans.isEmpty && (!s.creditsOpen || p.owed.all (· == 0))) && s.swarm.outs.isEmpty

/-- No cluster has a packet or a manifest still to send (R202, R204). -/
def State.sendsDone (s : State) : Bool :=
  s.halvesInOrder.all (fun k => (s.half k.1 k.2).queues.all (·.isEmpty) && (s.half k.1 k.2).mans.all (·.isEmpty))

/-- Every queue and unit that R440 names is idle; a result in staging waits for its Whisk or for the Hive (R150, R183). -/
def State.quiet (s : State) : Bool :=
  let noTx := s.links.all (fun l => (l.tx.q.drop 1).all (fun q => q.isEmpty))
  let noRx := (List.range s.nLinks).all (fun n => ([1, 2, 3] : List Nat).all (fun v => (s.rxq n v).isEmpty))
  s.inFlight.isEmpty && (List.range s.nRegions).all (fun a => s.sieveQuiet a) &&
    s.clus.all (fun c => c.appendQ.isEmpty) && s.sendsDone && s.ports.all (fun p => p.res.isEmpty) && noTx && noRx && s.limbo.all (fun p => p.vc == 0) &&
    s.openCount == 0 && s.waiters.isEmpty && s.diePortsQuiet

/-- They have held for E1_MIN. -/
def State.e1Ready (s : State) : Bool :=
  s.quiet && (match s.power.idleAt with
    | some t => decide (t + s.e1MinNs ≤ s.chip.now)
    | none => false)

/-- In E0 from S2 on, with no wake in progress (R439). -/
def State.maySleep (s : State) : Bool :=
  s.awake && !s.flag F.clkStateWaking && decide (2 ≤ s.get F.bootStageStage)

/-! ### Entries -/

def State.enterE1 (s : State) : State := (s.put F.clkStateState 1).inc R.clkE1Cnt 1

/-- The sleep that R447 chose begins: an arrival before its end is a miss (R448). -/
def State.asleep (s : State) : State := { s with power := { s.power with woke := false } }

/-- No Keeper works on a revision or clears the Hive (R441). -/
def State.keepersIdle (s : State) : Bool := s.roster.rev.isNone && !s.flag F.hiveZeroBusy

/-- E1_ENTRY (R440, R447): in a gap only as its choice, which a wake has used up (R449). -/
def State.e1Entry (s : State) : State :=
  let allowed := match s.power.gap with
    | some _ => s.power.plan == 1
    | none => true
  if s.maySleep && decide (1 ≤ s.slotGet F.clkPwrCtlDeepest) && allowed && s.e1Ready then s.enterE1.asleep else s

/-- VDD_ERP_LOGIC falls to 650 mV and the Hive goes to self-refresh (R50, R190, R439). -/
def State.doze (s : State) : State :=
  ((s.emit (.setpoint 650)).put F.clkStateVddMv 650).put F.hiveStatusSelfref 1

def State.quietLinks (s : State) (quiet : Bool) : State :=
  (List.range s.nLinks).foldl (fun t n => if t.linkState n = lsActive then t.sendCtrl n quiet else t) s

/-- E2_ENTRY (R441, R447): each ACTIVE link first sends a CTRL flit with QUIET (R299). A halted Head Keeper asks for no setpoint, so
neither E2 nor E3 is entered (R50, R496). -/
def State.e2Entry (s : State) : State :=
  let predicted := match s.power.gap with
    | some _ => s.power.plan == 2
    | none => s.stepping && !s.step.inProg
  if s.maySleep && s.e2Allowed && predicted && s.e1Ready && s.keepersIdle && s.keeperOn 8 then
    (((s.quietLinks true).put F.clkStateState 2).doze.inc R.clkE2Cnt 1).asleep
  else s

/-- The powered-down SRAMs lose their contents and each link enters LP (R299, R442). -/
def State.enterE3 (s : State) : State :=
  if s.get F.clkStateState = 3 ∨ s.keeperOn 8 = false then s
  else
    let s1 := { s with sieves := s.sieves.map (fun _ => SieveSt.reset), power := { s.power with timed := none, wakeAt := none } }
    (((s1.put F.clkStateState 3).put F.clkStateWaking 0).doze.linksLp.disarm tmWake).inc R.clkE3Cnt 1

/-- E3_ENTRY (R442); a fleet member never enters E3 (R441). -/
def State.e3Entry (s : State) : State :=
  let idle := match s.power.jobIdleAt with
    | some t => decide (t + 1000000 * max 1 (s.slotGet F.clkPwrCtlE3Idle) ≤ s.chip.now)
    | none => false
  if decide (2 ≤ s.get F.bootStageStage) && !s.flag F.clkStateWaking && s.jobState == jsIdle && idle &&
      !s.flag F.hiveZeroBusy && s.slotGet F.clkPwrCtlDeepest == 3 && !s.member then s.enterE3
  else s

/-! ### Waking (R443, R445, R447, R449) -/

/-- WAKE_TIMER: source 1. -/
def State.wakeTimer (s : State) : State :=
  if s.due tmWake then (s.disarm tmWake).startWake 1 else s

/-- Wake time by the state slept in (R445), in ns. -/
def wakeNs (from_ : Nat) : Nat := if from_ = 1 then 80 else if from_ = 2 then 25000 else 2000000

/-- The steps of a wake from E2 or E3 as their times come: after 10 µs the setpoint stands at E0_MV, and after 23.5 µs the Hive has
left self-refresh and refreshed every channel once (R50, R445). -/
def State.wakeSteps (s : State) : State :=
  if !s.flag F.clkStateWaking || decide (s.power.wakeFrom < 2) then s
  else
    let s1 := if s.power.wakeT0 + 10000 ≤ s.chip.now then s.put F.clkStateVddMv (clampNat (s.get F.clkVsetE0Mv) 650 850) else s
    if s1.flag F.hiveStatusSelfref && decide (s1.power.wakeT0 + 23500 ≤ s1.chip.now) then
      { s1.put F.hiveStatusSelfref 0 with bus := { s1.bus with exitAt := some s1.chip.now } }
    else s1

/-- What waited in one die port's staging is checked and taken. -/
def State.pumpPort (s : State) (a : Nat) : State :=
  let s1 := s.pumpHs a ((s.port a).hs.length + 1)
  let s2 := s1.pumpRes a (s1.resFuel a) 0
  s2.pumpSwm a ((s2.port a).swm.length + 1)

def State.pumpAll (s : State) : State := (List.range s.nRegions).foldl State.pumpPort s

/-- WAKE_COMPLETE: E0 again (R445). -/
def State.wakeComplete (s0 : State) : State :=
  let s := s0.wakeSteps
  let st := s.power.wakeFrom
  if !s.flag F.clkStateWaking || decide (s.chip.now < s.power.wakeT0 + wakeNs st) then s
  else
    let timed := if s.get F.clkStateLastWake = 1 then some s.chip.now else none
    let s1 := { (s.put F.clkStateState 0).put F.clkStateWaking 0 with power := { s.power with idleAt := none, timed := timed, woke := true } }
    let s2 := if st = 2 then s1.quietLinks false else if st = 3 then s1.linksWake else s1
    s2.swarmUpsets.pumpAll.swarmSettle

/-- The timed wake whose tile has not come for CLK_WAKE.HOLD. -/
def State.earlyDue (s : State) : Bool :=
  match s.power.timed with
  | some t => s.power.gap.isSome && decide (t + 1000 * max 1 (s.slotGet F.clkWakeHold) ≤ s.chip.now)
  | none => false

/-- EARLY_WAKE (R449): counted, and E1 again without a WAKE timer where R440 holds. -/
def State.earlyWake (s : State) : State :=
  if s.maySleep && s.earlyDue then
    let s0 : State := { s with power := { s.power with timed := none, wakeAt := none } }
    let s1 := s0.inc R.clkEarlyCnt 1
    if s1.e1Ready && decide (1 ≤ s1.slotGet F.clkPwrCtlDeepest) then s1.enterE1 else s1
  else s

/-! ### The end of a zeroisation pass (R192, R396, R468) -/

/-- Drain state 3 (R255): with no job left and the Hive zeroised the drain is safe and the engine parks (R442); a
faulted job ends first. -/
def State.drainSettle (s : State) : State :=
  if s.get F.rosterStatusDrain != 3 || s.flag F.hiveZeroBusy || !s.keeperOn 8 then s
  else if s.jobState = jsIdle then
    let t := s.put F.rosterStatusDrain 4
    { t with chip := { t.chip with ledOk := false, ledRemove := true } }.enterE3
  else if s.jobState = jsFaulted then s.endJob 6
  else s

/-- What follows the pass. -/
def State.afterZero (s : State) : AfterZero → State
  | .nothing => s
  | .toFaulted => s.put F.jobStatusState jsFaulted
  | .endJob =>
    let p := s.get F.jobOwnerPort
    let t := (s.eraseKeys.incF (F.acctJobsEnded p) 1).put F.jobOwnerValid 0
    let u := (t.raiseTo p evDone).put F.secZeroClean 1
    { (u.put F.jobStatusState jsIdle) with job := Job.reset }

/-- HIVE_ZEROISATION_DONE. -/
def State.zeroisationDone (s : State) : State :=
  if !s.flag F.hiveZeroBusy then s
  else
    let s1 := (s.zeroDone.put F.rasStatusPartBusy 0).updJob (fun j => { j with after := .nothing })
    (s1.afterZero s.job.after).drainSettle

/-! ### An AON tick (R450, R459, R493) -/

/-- 10 ns toward the whole microseconds of one counter: the new remainder, and whether a microsecond is full. -/
def usTick (acc : Nat) (on : Bool) : Nat × Bool :=
  if !on then (acc, false) else if 1000 ≤ acc + 10 then (acc + 10 - 1000, true) else (acc + 10, false)

/-- The conditions of R440 and R442 hold in the tick that ends: since when they have. -/
def State.idleTimes (s : State) : State :=
  { s with power := { s.power with
    idleAt := if s.quiet && s.awake then some (s.power.idleAt.getD s.chip.now) else none
    jobIdleAt := if s.jobState = jsIdle then some (s.power.jobIdleAt.getD s.chip.now) else none } }

/-- Time passes: the Hive's channels, idle times, TMR_NOW, the microseconds in each state, credit stalls and unreachable
members; a wake goes on. -/
def State.aonTick (s0 : State) : State :=
  if s0.chip.inReset then s0
  else
    let s := s0.hiveTick.idleTimes
    let st := s.get F.clkStateState
    let a0 := usTick s.chip.accE0 (s.chip.fastOn && st == 0)
    let a1 := usTick s.chip.accE1 (st == 1)
    let a2 := usTick s.chip.accE2 (decide (2 ≤ st))
    let c := { s.chip with now := s.chip.now + 10, accE0 := a0.1, accE1 := a1.1, accE2 := a2.1 }
    let s1 := { s with chip := c, tel := { s.tel with e0Us := s.tel.e0Us + b2n a0.2 },
                       links := s.links.map (fun (l : Link) => l.markStalls c.now) }
    ((s1.inc R.clkE1Us (b2n a1.2)).inc R.clkE2Us (b2n a2.2)).wakeSteps.noteUnreach

end Sys2Proof.Machine
end

