-- ==== Sys2Proof/Machine/Recipe.lean ====
section
/-! DEFINITION. Machine/Recipe.lean: the Recipe (R374 to R376), its acceptance at a step boundary (R378, R182, R395) and the
roster's and the power rules' share of that boundary. -/

namespace Sys2Proof.Machine

/-! ### The record (R374, R375) -/

structure Recipe where
  seq : Nat
  jobId : Nat
  endFlag : Bool
  yield : Bool
  ordered : Bool
  leaves : Nat
  joins : Nat
  listAt : Nat
  listCrc : Word
  buckets : List (Nat × Nat)
  bucketN : Nat
  tag0 : Word
  tag1 : Word
  deriving DecidableEq, Repr

def recipeOf (b : List Byte) : Recipe :=
  let w := wordAt b
  let n := fld (w 7) 4 0
  { seq := (w 0).toNat, jobId := fld (w 1) 15 0, endFlag := bit (w 2) 2, yield := bit (w 2) 1, ordered := bit (w 2) 0,
    leaves := fld (w 3) 28 16, joins := fld (w 3) 12 0, listAt := (w 4).toNat + 2 ^ 32 * (w 5).toNat, listCrc := w 6,
    bucketN := n, buckets := (List.range (min n 16)).map (fun i => (fld (w (8 + i)) 18 8, fld (w (8 + i)) 7 0)),
    tag0 := w 24, tag1 := w 25 }

def Recipe.total (r : Recipe) : Nat := r.leaves + r.joins

/-- The ids of the leaves, and (id, TOK) of the joins, of a change list. -/
def listLeaves (r : Recipe) (b : List Byte) : List Nat :=
  (List.range r.leaves).map (fun i => fld (wordAt b (2 * i)) 13 0)

def listJoins (r : Recipe) (b : List Byte) : List (Nat × Nat) :=
  (List.range r.joins).map (fun i => (fld (wordAt b (2 * (r.leaves + i))) 13 0, fld (wordAt b (2 * (r.leaves + i) + 1)) 17 0))

/-! ### Refusals (R376, R219) -/

/-- The body of the largest tile of a layer, in bytes (R223). -/
def State.largestTile (s : State) (rows l : Nat) : Nat := pad16 (rows / 8) + pad16 (4 * rows) + rows * s.dispBytes l

/-- R219. -/
def State.bucketsOk (s : State) (r : Recipe) : Bool :=
  let m := s.rowMult
  let rows := r.buckets.map (·.1)
  let top := rows.getLastD 0
  decide (1 ≤ r.bucketN ∧ r.bucketN ≤ 16) && rows.all (fun x => decide (m ≤ x ∧ x ≤ 2047 ∧ x % m = 0)) &&
    (rows.zip (rows.drop 1)).all (fun p => decide (p.1 < p.2)) &&
    (List.range s.modelLayers).all (fun l => decide (s.largestTile top l ≤ 16 * (2 ^ 20 - 1)))

/-- No id appears twice. -/
def distinct : List Nat → Bool
  | [] => true
  | x :: r => !r.contains x && distinct r

/-- The refusal code of a Recipe that passed the tests for absence, by the tests that read no stream entry; 0 when none refuses it.
`list`: the change list as read. DESIGN CHOICE (assumption row 96): END and YIELD both set are refused also in the Recipe of an ending
job, whose flags R395 ignores. -/
def State.textRefusal (s : State) (r : Recipe) (list : Option (List Byte)) : Nat :=
  if 4096 < r.total then 2
  else if r.yield && r.endFlag then 8
  else if !s.bucketsOk r then 3
  else if r.total = 0 then 0
  else match list with
    | none => 1
    | some b =>
      let bs := b.take (8 * r.total)
      let leaves := listLeaves r bs
      let joins := listJoins r bs
      if r.listAt % 16 ≠ 0 ∨ bs.length < 8 * r.total ∨ crc32c bs ≠ r.listCrc then 1
      else if joins.any (fun j => j.2 == 0 || decide (131072 < j.2)) then 7
      else if !distinct (leaves ++ joins.map (·.1)) then 4
      else 0

/-- The refusal code by the stream table: a leave that is not present, or a join that is. DESIGN CHOICE (assumption row 96): a stream
torn down is excepted up to the acceptance that removes it, so a leave that names it later is refused. -/
def State.tableRefusal (s : State) (leaves : List Nat) (joins : List (Nat × Nat)) : Nat :=
  if leaves.any (fun x => !s.present x && !s.step.torn.contains x) then 5
  else if joins.any (fun j => s.present j.1 && !leaves.contains j.1 && !s.step.torn.contains j.1) then 6
  else 0

/-! ### Acceptance (R378) -/

/-- The Recipe queue's protection, met when the engine reads the accepted Recipe it holds (R463). -/
def State.recipeUpsets (s : State) : State :=
  let (ce, s1) := s.meet (.recipeQ false)
  let s2 := if ce then s1.inc R.rasCeCnt 1 else s1
  let (ue, s3) := s2.meet (.recipeQ true)
  if ue then (s3.inc R.rasUeCnt 1).err 0x14 0 none else s3

/-- Steps 1 to 3, and 6: torn streams go, the mode is set, the leaves apply, and the step is named. -/
def State.acceptHead (s : State) (r : Recipe) (leaves : List Nat) : State :=
  let torn := s.step.torn
  let s1 := torn.foldl State.clearStream s
  let s2 := { s1 with step := { StepSt.reset with
    inProg := true, ordered := r.ordered, tag0 := r.tag0, tag1 := r.tag1, acceptedAt := s.chip.now, endedAt := s.chip.now,
    tornEarly := s.step.tornEarly, tornRemoved := torn, cnt := s.step.cnt } }
  let real := leaves.filter (fun x => !torn.contains x)
  let s3 := (real.foldl State.clearStream s2).updCnt (fun c => { c with leaves := real.length })
  let s4 := (s3.put F.ladleStatusOrdered (b2n r.ordered)).setNum R.stepLastSeq r.seq
  ((s4.setNum R.stepWaitSeq (seqAdd r.seq 1)).put F.stepRefuseCode 0).updJob (fun j => { j with anyAccepted := true, reads := [], held := none })

/-- What the boundary makes effective: the fault policy, written values and the host's scale entry (R154, R465, R490). -/
def State.boundaryRegs (s : State) : State :=
  let s1 := (s.settleRegs).updJob (fun j => { j with policy := (s.get F.rasFaultPolicyMode, s.get F.rasFaultPolicyTdMax) })
  s1.applyScaleSet

/-- How many joins, from the front, fit beside t tokens (R182): counted down from m. -/
def State.joinCount (s : State) (ld : Load) (t : Nat) (joins : List (Nat × Nat)) : Nat → Nat
  | 0 => 0
  | m + 1 => if s.fits ld (t + sumNat ((joins.take (m + 1)).map (·.2))) then m + 1 else s.joinCount ld t joins m

/-- Step 4: joins are admitted and the step's space is reserved (R182). -/
def State.streamsIn (s : State) (x : Nat) (joins : List (Nat × Nat)) : State :=
  let s0 := (s.checkStreams .keeper 0 s.streamIds).2
  let t := sumNat (s0.streamIds.map (fun i => (s0.stream i).tok))
  let ld := s0.modelLoad s0.modelLayers
  let m := s0.joinCount ld t joins joins.length
  let inn := joins.take m
  let s1 := inn.foldl (fun (u : State) (j : Nat × Nat) => u.putStream j.1 ⟨true, j.2, x, 0, 0, 0, 0, 0⟩) s0
  let s2 := (s1.reserve ld (t + sumNat (inn.map (·.2))) (!s0.fits ld t)).updJob (fun j =>
    { j with model := j.model.map (fun y => { y with ub := ld.ub, uc := ld.uc, us := ld.us }) })
  (s2.updStep (fun y => { y with deferred := (joins.drop m).map (·.1) })).updCnt (fun c =>
    { c with joins := m, streams := s2.streamIds.length })

/-- A deadline that expires in the tick of the acceptance is handled as one before it (R387). -/
def State.deadlineTie (s : State) : State := if s.due tmDeadline then s.deadlineEarly.disarm tmDeadline else s

/-- R386: an expired deadline starts again at the acceptance; a running one goes on. -/
def State.restartDeadline (s0 : State) : State :=
  let s := s0.deadlineTie
  match s.timerOf tmDeadline with
  | some t => if (s.timer t).armed then s else s.arm tmDeadline s.deadlineUs
  | none => s

/-- The layers' bars from E2 are one step older (R448). -/
def State.ageBars (s : State) : State :=
  { s with power := { s.power with bars := (s.power.bars.map (fun p => (p.1, p.2 - 1))).filter (fun p => p.2 != 0) } }

/-- Step 7 and what else begins with the step: held packets enter, the Keepers contribute, the first gap starts, and the
die ports release what waited (R14, R211, R240, R446). -/
def State.beginStep (s : State) : State :=
  let s1 := (s.disarm tmIdle).restartDeadline
  let s2 := (s1.sieveStep.dropOldChunks.enterAllHeld).cluPhases
  let s3 := ((s2.revContribute.ageBars).gapStart 0).stagedGaps
  if s3.awake then (List.range s3.nRegions).foldl (fun t a => t.pumpHs a ((t.port a).hs.length + 1)) s3 else s3

/-- The end in island mode: the Recipe runs no step, and its Ask is the job's last (R395). -/
def State.islandEnd (s : State) (r : Recipe) (reason : Nat) : State :=
  let s1 := (s.deadlineTie.updJob (fun j => { j with endReason := reason, yield := r.yield })).stopJobTimers
  let s2 := s1.updCnt (fun c => { c with streams := s1.streamIds.length })
  let s3 := s2.writeAsk ⟨r.seq, s2.stepStatus r.yield, false, false, true, true, false⟩
  (s3.updStep (fun t => { t with inProg := false })).afterFinal

/-- The end in fleet mode: LEAVE with effective step x + 2, and the job ends after step x + 1 (R395). -/
def State.fleetEnd (s : State) (r : Recipe) : State :=
  let e := seqAdd r.seq 2
  let s1 := s.castRoster s.peers opLeave 0 e s.self
  let s2 := s1.updJob (fun j => { j with endSeq := some (seqAdd r.seq 1), yield := r.yield
                                         endReason := if r.yield then 2 else 1 })
  (s2.put F.jobStatusEndPending 1).put F.jobStatusState jsEnding

/-- A valid Recipe is accepted. A control error found on the way acts before what follows it (R465, R468). -/
def State.accept (s : State) (r : Recipe) (leaves : List Nat) (joins : List (Nat × Nat)) : State :=
  let ends := r.endFlag || r.yield
  ((s.startWake 6).disarm tmPoll).recipeUpsets.unlessReset fun s1 =>
  ((s1.acceptHead r leaves).boundaryRegs.rosterBoundary r.seq (!ends)).unlessReset fun s2 =>
  let s3 := s2.updStep (fun t => { t with fleet := s2.member })
  let pending := match s3.job.endSeq with
    | some e => !after 32 e (seqAdd r.seq 1)
    | none => false
  let drained := s3.get F.rosterStatusDrain == 3
  if !s3.member && !pending && (ends || drained) then
    s3.islandEnd r (if drained && !ends then 6 else if r.yield then 2 else 1)
  else
    let s4 := if s3.member && ends && !pending then s3.fleetEnd r else s3
    ((s4.streamsIn r.seq joins).updStep (fun t => { t with buckets := r.buckets })).unlessReset State.beginStep

/-- A refusal is recorded, and the slot is read again at the next poll (R376). -/
def State.refuse (s : State) (code : Nat) : State := (s.put F.stepRefuseCode code).inc R.stepRefuseCnt 1

/-- The oldest read of the awaited slot is over. -/
def State.readOver (s : State) : State := s.updJob (fun j => { j with reads := j.reads.drop 1 })

/-- The oldest read of the awaited slot has had no completion for 50 µs (R38). -/
def State.readLate (s : State) : Bool := s.job.reads.head?.any (fun t => decide (t + 50000 ≤ s.chip.now))

/-- The streams that a change list names. -/
def listedStreams (r : Recipe) (list : Option (List Byte)) : List Nat :=
  let bs := (list.getD []).take (8 * r.total)
  listLeaves r bs ++ (listJoins r bs).map (·.1)

/-- A Recipe that is there is refused or accepted; the stream-table entries that its list names are read first where no other test
refuses it (R376), and one that fails its check ends the reading with a control error (R464). -/
def State.decideRecipe (s : State) (r : Recipe) (list : Option (List Byte)) : State :=
  if s.textRefusal r list ≠ 0 then s.refuse (s.textRefusal r list)
  else match s.checkStreams .keeper 0 (listedStreams r list) with
    | (false, s1) => s1
    | (true, s1) =>
      let bs := (list.getD []).take (8 * r.total)
      let code := s1.tableRefusal (listLeaves r bs) (listJoins r bs)
      if code ≠ 0 then s1.refuse code else s1.accept r (listLeaves r bs) (listJoins r bs)

/-- A Recipe that nothing but the stream table may still refuse, found while the Hive is in self-refresh, wakes the engine (R443
source 6) and is decided once it is awake: the stream table and the Hive's space serve no access before (R190, assumption row
92). -/
def State.holdRecipe (s : State) (slot list : List Byte) : State :=
  (s.startWake 6).updJob (fun j => { j with held := some (slot, list) })

/-- The Recipe that waited for the wake, or for a halted Head Keeper to go on (R496). -/
def State.acceptHeld (s : State) : State :=
  match s.job.held with
  | some (slot, list) =>
    if 2 ≤ s.get F.clkStateState ∨ s.flag F.clkStateWaking = true ∨ s.keeperOn 8 = false then s
    else (s.updJob (fun j => { j with held := none })).decideRecipe (recipeOf slot) (some list)
  | none => s

/-- The Head Keeper goes on after a halt: a wake that waited for it starts, a drain goes on to E3, and a Recipe that it holds is
decided (R50, R496). -/
def State.headResumes (s : State) : State :=
  if !s.keeperOn 8 then s
  else (match s.power.wakeHeld with
    | some c => ({ s with power := { s.power with wakeHeld := none } }).startWake c
    | none => s).drainSettle.acceptHeld

/-- RECIPE_READ_DONE (R376): absent, refused or valid. The Head Keeper takes it, unless it is halted (R496). -/
def State.recipeRead (s : State) (slot list : Option (List Byte)) : State :=
  if s.job.reads.isEmpty || !s.stepping || s.step.inProg || s.flag F.rasStatusPartBusy || s.job.held.isSome || !s.keeperOn 8 then s
  else
    let s0 := s.readOver
    match slot with
    | none => s0.inc R.rasDmaErrCnt 1
    | some b =>
      let r := recipeOf b
      if !recOk 64 (b.take 256) || decide (b.length < 256) || r.seq != s0.nextSeq || r.jobId != s0.get F.jobIdId then s0
      else
        let early := decide (4096 < r.total) || (r.yield && r.endFlag) || !s0.bucketsOk r
        let reads := !early && r.total != 0 && r.listAt % 16 == 0
        let s1 := if reads then s0.dmaRead r.listAt (8 * r.total) else s0
        let s2 := if reads && list.isNone then s1.inc R.rasDmaErrCnt 1 else s1
        if s2.get F.clkStateState < 2 then s2.decideRecipe r list
        else if s2.textRefusal r list ≠ 0 then s2.refuse (s2.textRefusal r list)
        else s2.holdRecipe b (list.getD [])

/-- A load has been reading for 50 µs. -/
def State.loadLate (s : State) : Bool := s.jobState == jsLoading && decide (s.job.loadAt + 50000 ≤ s.chip.now)

/-- DMA_READ_TIMEOUT (R38): no completion within 50 µs; a read of the load ends it with the code of what was read (R393). -/
def State.dmaTimeout (s : State) (k : DmaKind) : State :=
  match k with
  | .slot =>
    if s.readLate then s.readOver.inc R.rasDmaErrCnt 1 else s
  | .list =>
    if s.readLate then (s.readOver.inc R.rasDmaErrCnt 1).refuse 1 else s
  | .model => if s.loadLate then (s.inc R.rasDmaErrCnt 1).loadFails 1 0 0 else s
  | .segment i => if s.loadLate then (s.inc R.rasDmaErrCnt 1).loadFails 3 0 i else s
  | .save => if s.loadLate && s.job.loadKind == 2 then (s.inc R.rasDmaErrCnt 1).loadFails 8 0 0 else s
  | .other => (s.inc R.rasDmaErrCnt 1).err 0x02 0 none

end Sys2Proof.Machine
end

