-- ==== Sys2Proof/Machine/Sideband.lean ====
section
/-! DEFINITION. Machine/Sideband.lean: the sideband pins (R45 to R47, R255, R364), the FEC pulses (R34) and the reported
lifecycle state (R480). -/

namespace Sys2Proof.Machine

def State.updChip (s : State) (f : Chip → Chip) : State := { s with chip := f s.chip }

/-! ### svc_drain_n (R255) -/

/-- The drain starts: requested, and left at once by a package that is no member. -/
def State.drainStart (s : State) : State :=
  let s1 := (s.put F.rosterStatusDrain (if s.member then 1 else 3)).updChip (fun c => { c with
    blinkAt := s.chip.now, drainLatched := false })
  s1.drainSettle

/-- A filtered assertion acted on: the event, the wake, and the drain unless one runs already. -/
def State.drainAct (s : State) : State :=
  let s1 := (s.raise evDrain).startWake 7
  if s1.get F.rosterStatusDrain = 0 then s1.drainStart else s1

/-- SVC_DRAIN: latched before S2. -/
def State.svcDrain (s : State) : State :=
  if s.get F.bootStageStage < 2 then s.updChip (fun c => { c with drainLatched := true }) else s.drainAct

/-- DRAIN_LED_BLINK: svc_led_ok changes each 250 ms in drain states 1 to 3. -/
def State.ledBlink (s : State) : State :=
  let d := s.get F.rosterStatusDrain
  if 1 ≤ d ∧ d ≤ 3 ∧ s.chip.blinkAt + 250000000 ≤ s.chip.now then
    s.updChip (fun c => { c with ledOk := !c.ledOk, blinkAt := c.blinkAt + 250000000 })
  else s

/-! ### thm_alert_n, lnk_fec_corr and the lifecycle state -/

/-- THM_ALERT (R47): counted, raised and named in the next Ask. -/
def State.thermal (s : State) : State :=
  ((s.inc R.rasThmCnt 1).raise evThermal).updCnt (fun c => { c with thm := c.thm + 1 })

/-- ROT_LIFECYCLE_REPORT (R480): once for each release. -/
def State.lifecycle (s : State) (st : Nat) : State :=
  if s.chip.lifeReported then s
  else (s.put F.secLifecycleState st).updChip (fun c => { c with lifeReported := true })

/-! ### erp_sync_in (R46, R364) -/

/-- An edge that passes the filter. -/
def State.syncOk (s : State) (highNs : Nat) : Bool :=
  decide (20 ≤ highNs) && (match s.chip.syncLast with
    | some t => decide (t + 1000 ≤ s.chip.now)
    | none => true)

/-- SYNC_IN_EDGE: it fires an armed barrier, and else captures TMR_NOW - 20. -/
def State.syncEdge (s : State) (highNs : Nat) : State :=
  if !s.syncOk highNs then s
  else
    let s1 := s.updChip (fun c => { c with syncLast := some s.chip.now })
    if s1.bar.open_ && s1.bar.armed then (s1.inc R.swarmCapsupCnt 1).barFired.finishStep
    else s1.setPair R.tmrCapLo ((s.chip.now + 2 ^ 64 - 20) % 2 ^ 64)

end Sys2Proof.Machine
end

