-- ==== Sys2Proof/Machine/ImageRecs.lean ====
section
/-! DEFINITION. Machine/ImageRecs.lean: the records of a start image (R418 to R422, R452): parsing, checks, conflicts and
what applying one does. -/

namespace Sys2Proof.Machine

/-- A record. -/
inductive ImgRec where
  | reg (off : Nat) (mask val : Word)
  | span (off stride count : Nat) (mask val : Word)
  | route (first : Nat) (vals : List Word)
  | timer (t feat : Nat) (val : Word)
  | keeper (mask off len : Nat) (data : List Byte)
  deriving DecidableEq, Repr

/-- The record whose WORDS words these are; none for a reserved type or a wrong WORDS (R418). -/
def imgRec (type words : Nat) (b : List Byte) : Option ImgRec :=
  let w := wordAt b
  if type = 1 ∧ words = 4 then some (.reg (w 1).toNat (w 2) (w 3))
  else if type = 2 ∧ words = 6 then some (.span (w 1).toNat (w 2).toNat (w 3).toNat (w 4) (w 5))
  else if type = 3 ∧ words = 3 + (w 2).toNat then
    some (.route (fld (w 1) 11 0) (bytesWords (w 2).toNat (b.drop 12)))
  else if type = 4 ∧ words = 4 then some (.timer (fld (w 1) 4 0) (fld (w 2) 7 0) (w 3))
  else if type = 5 ∧ words = 4 + ceilDiv (w 3).toNat 4 then
    some (.keeper (fld (w 1) 8 0) (w 2).toNat (w 3).toNat (slice b 16 (w 3).toNat))
  else none

/-- The n records of a record area, END the last of them, and the bytes after END. -/
def imgRecs : Nat → List Byte → Option (List ImgRec × List Byte)
  | 0, _ => none
  | n + 1, b =>
    let f0 := wordAt b 0
    let words := fld f0 19 0
    if b.length < 4 * words ∨ words = 0 ∨ fld f0 23 20 ≠ 0 then none
    else if fld f0 31 24 = 6 then
      if n = 0 ∧ words = 1 then some ([], b.drop 4) else none
    else match imgRec (fld f0 31 24) words (b.take (4 * words)), imgRecs n (b.drop (4 * words)) with
      | some r, some (rs, rest) => some (r :: rs, rest)
      | _, _ => none

/-! ### Checks of one record (R419) -/

/-- A register write of MASK and VALUE: loadable fields only, no value bit outside MASK. -/
def regWriteOk (off : Nat) (mask val : Word) : Bool :=
  match regSpec off with
  | some r => off % 4 == 0 && (mask &&& ~~~BitVec.ofNat 32 (r.il ||| r.ilrw)) == 0 && (val &&& ~~~mask) == 0
  | none => false

def timerFeatures : List Nat := [tmPoll, tmWake, tmDeadline, tmBar, tmJoin, tmRev, tmIdle, tmKeeper, tmTel]

/-- The UNIT of a feature that fixes it (R451). -/
def fixedUnit (feat : Nat) : Option Nat :=
  if feat = tmPoll ∨ feat = tmWake then some 0
  else if feat = tmDeadline then some 1
  else if feat = tmBar ∨ feat = tmJoin then some 2
  else if feat = tmRev ∨ feat = tmIdle then some 3
  else none

/-- R419 and R452 on one TIMER record. -/
def timerOk (feat : Nat) (val : Word) : Bool :=
  timerFeatures.contains feat &&
    (match fixedUnit feat with
      | some u => fld val 23 22 == u && !bit val 21
      | none => fld val 19 0 != 0)

def ImgRec.ok (e24 : Bool) : ImgRec → Bool
  | .reg off mask val => regWriteOk off mask val
  | .span off stride count mask val =>
    decide (1 ≤ count ∧ count ≤ 64) && (List.range count).all (fun i => regWriteOk (off + i * stride) mask val)
  | .route first vals => decide (1 ≤ vals.length ∧ vals.length ≤ 4096 ∧ first + vals.length ≤ 4096)
  | .timer _ feat val => timerOk feat val
  | .keeper mask off len _ =>
    (!e24 || fld (BitVec.ofNat 32 mask) 7 6 == 0) && off % 8 == 0 && decide (off + len ≤ 524288)

/-- R452 over all TIMER records: each required feature once, no feature twice. -/
def timersOk (rs : List ImgRec) : Bool :=
  let fs := rs.filterMap (fun r => match r with
    | .timer _ f _ => some f
    | _ => none)
  ([tmPoll, tmWake, tmDeadline, tmBar, tmJoin, tmRev, tmIdle] : List Nat).all (fun f => fs.contains f) &&
    timerFeatures.all (fun f => decide (fs.count f ≤ 1))

/-! ### Applying a record (R421) -/

/-- Bits that read zero whatever an image loads (the tables of FMT_ALLOW_DISP and FMT_ALLOW_COMB). -/
def loadMask (off : Nat) : Word :=
  if off = R.fmtAllowDisp then 0x14FF#32 else if off = R.fmtAllowComb then 0x1F#32 else 0xFFFFFFFF#32

/-- Load bits of one register; an absent instance ignores it (R420). -/
def State.loadReg (s : State) (off : Nat) (mask val : Word) : State :=
  if s.fuses.e24 && absentOn24 off then s
  else if regHome off = R.linkRtData 0 then
    let i := s.get (F.linkRtIdxMember 0)
    { s with routes := SMap.set routeReset s.routes i ((SMap.get routeReset s.routes i &&& ~~~mask) ||| (val &&& mask)) }
  else s.setWord off (((s.word off &&& ~~~mask) ||| (val &&& mask)) &&& loadMask off)

def zeroByteAt (_ : Nat) : Byte := 0

/-- R421 for one record. DESIGN CHOICE (assumption row 96): a TIMER record's F2 is the timer's FEATURE whatever F3 says in that field,
and RUN of F3 is loaded as 0. -/
def State.applyRec (s : State) : ImgRec → State
  | .reg off mask val => s.loadReg off mask val
  | .span off stride count mask val =>
    (List.range count).foldl (fun t i => t.loadReg (off + i * stride) mask val) s
  | .route first vals => { s with routes := SMap.write routeReset s.routes first vals }
  | .timer t feat val => s.setWord (R.tmrCfg t) (setFld (setFld val 31 24 feat) 20 20 0)
  | .keeper mask off _ data =>
    { s with keep := { s.keep with mem := s.keep.mem.zipIdx.map (fun p =>
        if mask / 2 ^ p.2 % 2 = 1 then SMap.write zeroByteAt p.1 off data else p.1) } }

def State.applyRecs (s : State) (rs : List ImgRec) : State := rs.foldl State.applyRec s

/-! ### Conflicts (R422) -/

/-- What earlier records have loaded: register bits, routes, timers and Keeper bytes. -/
structure Loaded where
  regs : List (Nat × Word × Word)
  /-- (member id, mask, value) -/
  routes : List (Nat × Word × Word)
  /-- LINK_RT_IDX, which names the route that a record of LINK_RT_DATA loads -/
  rtIdx : Word
  timers : List Nat
  keeps : List (Nat × Nat × Nat)
  deriving DecidableEq, Repr

/-- Bits of TMR_CFG that a TIMER record loads: all but RUN. -/
def timerMask : Word := 0xFFEFFFFF#32

/-- The register writes of a record that reach present instances. -/
def ImgRec.writes (e24 : Bool) : ImgRec → List (Nat × Word × Word)
  | .reg off mask val => if e24 && absentOn24 off then [] else [(regHome off, mask, val)]
  | .span off stride count mask val =>
    (((List.range count).map (fun i => off + i * stride)).filter (fun o => !(e24 && absentOn24 o))).map
      (fun o => (regHome o, mask, val))
  | .timer t feat val => [(R.tmrCfg t, timerMask, setFld val 31 24 feat &&& timerMask)]
  | _ => []

/-- The bits of routes that a record loads: by ROUTE, or through LINK_RT_DATA. -/
def ImgRec.routesOf (e24 : Bool) (l : Loaded) (r : ImgRec) : List (Nat × Word × Word) :=
  match r with
  | .route first vals => vals.zipIdx.map (fun p => (first + p.2, 0xFFFFFFFF#32, p.1))
  | _ => ((r.writes e24).filter (fun w => w.1 == R.linkRtData 0)).map (fun w => (fld l.rtIdx 11 0, w.2))

/-- LINK_RT_IDX after a record. -/
def ImgRec.rtIdxAfter (e24 : Bool) (w : Word) (r : ImgRec) : Word :=
  ((r.writes e24).filter (fun x => x.1 == R.linkRtIdx 0)).foldl (fun w x => (w &&& ~~~x.2.1) ||| (x.2.2 &&& x.2.1)) w

def ImgRec.keepsOf : ImgRec → List (Nat × Nat × Nat)
  | .keeper mask off len _ => ((List.range 9).filter (fun k => mask / 2 ^ k % 2 = 1)).map (fun k => (k, off, off + len))
  | _ => []

/-- A TIMER record names a timer that an earlier one names. -/
def ImgRec.timerTwice (l : Loaded) : ImgRec → Option Nat
  | .timer t _ _ => if l.timers.contains t then some t else none
  | _ => none

/-- The resource, (RES_KIND, RES_ID), on which a record conflicts with the earlier ones. -/
def ImgRec.conflict (e24 : Bool) (l : Loaded) (r : ImgRec) : Option (Nat × Nat) :=
  match r.timerTwice l with
  | some t => some (1, t)
  | none => match (r.writes e24).find? (fun w => l.regs.any (fun o =>
      o.1 == w.1 && ((o.2.1 &&& w.2.1) &&& (o.2.2 ^^^ w.2.2)) != 0)) with
  | some w => some (0, w.1 / 4)
  | none =>
    if (r.routesOf e24 l).any (fun p => l.routes.any (fun o =>
        o.1 == p.1 && ((o.2.1 &&& p.2.1) &&& (o.2.2 ^^^ p.2.2)) != 0)) then some (0, R.linkRtData 0 / 4)
    else match r.keepsOf.find? (fun p => l.keeps.any (fun o => o.1 == p.1 && decide (max o.2.1 p.2.1 < min o.2.2 p.2.2))) with
      | some p => some (2, p.1)
      | none => none

def Loaded.add (e24 : Bool) (l : Loaded) (r : ImgRec) : Loaded :=
  { regs := r.writes e24 ++ l.regs, routes := r.routesOf e24 l ++ l.routes,
    rtIdx := r.rtIdxAfter e24 l.rtIdx,
    timers := (match r with
      | .timer t _ _ => t :: l.timers
      | _ => l.timers),
    keeps := r.keepsOf ++ l.keeps }

/-- The first record, counted in record order from k, that conflicts with an earlier one. -/
def firstConflict (e24 : Bool) : Nat → Loaded → List ImgRec → Option (Nat × Nat × Nat)
  | _, _, [] => none
  | k, l, r :: rs => match r.conflict e24 l with
    | some x => some (k, x)
    | none => firstConflict e24 (k + 1) (l.add e24 r) rs

/-- R267 on one link. -/
def State.vcBad (s : State) (n : Nat) : Bool :=
  let w := s.word (R.linkVcbuf n)
  let ps := [fld w 7 0, fld w 15 8, fld w 23 16, fld w 31 24]
  ps.any (fun p => decide (p < 8)) || decide (512 < sumNat ps)

/-- The last record that writes one of some registers: with it, a resource that the records leave wrong has become so. -/
def lastWrite (e24 : Bool) (offs : List Nat) (rs : List ImgRec) : Nat :=
  rs.zipIdx.foldl (fun k p => if (p.1.writes e24).any (fun w => offs.contains w.1) then p.2 else k) 0

/-- The resources of R422 that the records leave wrong as a whole, with the registers that make each of them: the Hive layout,
the places of each link, and ROWMULT. -/
def State.wholeBad (s : State) : List (List Nat × Nat × Nat) :=
  (if s.layoutNow.bad then [(R.hiveLayout :: R.hiveSlotCnt :: (List.range 5).map R.hivePoolCnt, 3, 0)] else []) ++
  ((List.range s.nLinks).filter (fun n => s.vcBad n)).map (fun n => ([R.linkVcbuf n], 0, R.linkVcbuf n / 4)) ++
  (match (List.range s.nClusters).find? (fun c => s.get (F.cluTileRowmult c) != s.get (F.cluTileRowmult 0)) with
    | some c => [((List.range 32).map R.cluTile, 0, R.cluTile c / 4)]
    | none => [])

/-- The conflict that is first in record order (R422), on the state that the records would leave; `rtIdx` is LINK_RT_IDX before
them. -/
def State.imageConflict (s : State) (rtIdx : Word) (rs : List ImgRec) : Option (Nat × Nat) :=
  let e24 := s.fuses.e24
  let whole := s.wholeBad.map (fun b => (lastWrite e24 b.1 rs, b.2))
  match (firstConflict e24 0 ⟨[], [], rtIdx, [], []⟩ rs).toList ++ whole with
  | [] => none
  | x :: xs => some (xs.foldl (fun a b => if b.1 < a.1 then b else a) x).2

/-- A TMR_CFG word meets the limits of the timer bank (R419, R452): free, or a feature with its UNIT, PERIODIC and PERIOD. -/
def tmrWordOk (w : Word) : Bool := fld w 31 24 == 0 || timerOk (fld w 31 24) w

/-- The value limits that field tables set on loaded values: CLU_TILE, HSFMT, HIVE_POOL_CNT and TMR_CFG (R419). -/
def State.limitsOk (s : State) : Bool :=
  (List.range s.nClusters).all (fun c => ([8, 16, 32, 64, 128] : List Nat).contains (s.get (F.cluTileRowmult c))) &&
    decide (s.get F.hiveClassHsfmt ≤ 2) &&
    (List.range 5).all (fun q => s.num (R.hivePoolCnt q) != 0xFFFFFFFF) &&
    (List.range 32).all (fun t => tmrWordOk (s.word (R.tmrCfg t)))

end Sys2Proof.Machine
end

