-- ==== Sys2Proof/Machine/Boot.lean ====
section
/-! DEFINITION. Machine/Boot.lean: reset (R51, R409), the staged start (R409 to R424), fleet entry (R426) and the
root-of-trust mailbox (R477, R480). -/

namespace Sys2Proof.Machine

/-! ### Reset (R51) -/

/-- erp_rst_n asserted: every output and field is in its reset state. What the engine has sent stays sent. -/
def State.assertReset (s : State) : State :=
  let r := State.released s.fuses
  { r with chip := { r.chip with inReset := true }, outs := s.outs, freeCtr := s.freeCtr, pending := s.pending }

/-- Its release: S0, with TMR_NOW at 0. -/
def State.releaseReset (s : State) : State :=
  if s.chip.inReset then { s.assertReset with chip := Chip.reset } else s

/-! ### Stages (R409) -/

/-- A change of STAGE. -/
def State.setStage (s : State) (st : Nat) : State := (s.put F.bootStageStage st).raise evStage

/-- BOOT_T_S1 to BOOT_T_S3, in microseconds. -/
def State.stampStage (s : State) (i : Nat) : State := s.setNum (R.bootT i) (s.chip.now / 1000)

def State.updBoot (s : State) (f : Boot → Boot) : State := { s with boot := f s.boot }

/-- The outcome of the slot being read. -/
def State.slotCode (s : State) (code : Nat) : State :=
  if s.boot.slot = 0 then s.put F.bootStatusACode code else s.put F.bootStatusBCode code

/-- A start fails (R412). -/
def State.startFail (s : State) (code : Nat) : State :=
  let s1 := ((s.put F.bootStatusCode code).put F.bootStagePrep 0).setStage 0
  let s2 := s1.updChip (fun c => { c with fastOn := false, failed := true, flashDriven := false })
  { s2 with boot := Boot.reset, mbox := [] }

/-- The base of a slot in the flash: 0 for slot A, 0x0200_0000 for slot B (R413). -/
def slotBase (slot : Nat) : Nat := 0x2000000 * slot

/-- The reading of a slot begins with its header (R424). -/
def State.slotBegin (s : State) (slot : Nat) : State :=
  (s.emit (.flashRead (slotBase slot) 256)).updBoot (fun b => { b with slot := slot, reading := true, held := none })

/-- A slot fails: slot A leads to slot B, slot B ends the start (R423). -/
def State.slotFails (s : State) (code : Nat) : State :=
  let s1 := s.slotCode code
  if s.boot.slot = 0 then s1.slotBegin 1 else s1.startFail code

/-! ### Entry to S1 (R36, R43, R50) -/

def opBootKeyReq : Nat := 0x01
def opMeasure : Nat := 0x02

/-- The read mode of R43. -/
def flashMode (f : FlashAd) : Nat := if f.octal then 0 else if f.quad then 1 else 2

/-- The clock of the mode of R43, in MHz. -/
def flashClock (f : FlashAd) : Nat := if f.octal then min 200 f.octalMhz else if f.quad then min 100 f.quadMhz else 25

/-- The volatile configuration writes that enter octal DTR, where that mode is selected (R42). -/
def State.flashEnter (s : State) (f : FlashAd) : State :=
  if f.octal then f.config.foldl (fun t w => t.emit (.flashConfig w)) s else s

/-- S1 is entered: the flash is reset and its SFDP is read in 1S-1S-1S mode at 25 MHz; its read mode and clock are selected and
entered, and the reading of slot A begins (R409, R42, R43, R413). -/
def State.s1Entry (s : State) (f : FlashAd) : State :=
  if s.get F.bootStageStage != 0 || s.chip.failed || s.chip.fastOn then s
  else
    let mv := clampNat (s.get F.clkVsetE0Mv) 650 850
    let s1 := s.updChip (fun c => { c with fastOn := true, flashDriven := true })
    let s2 := (((s1.emit (.setpoint mv)).put F.clkStateVddMv mv).setStage 1).stampStage 0
    let s3 := ((s2.zeroStart 0).emit .flashReset).emit (.flashSfdp 0x5A 25)
    if !f.sfdp || decide (f.density < 0x4000000) then s3.startFail 1
    else
      let s4 := ((s3.put F.bootSlotMode (flashMode f)).updBoot (fun b => { b with clk := flashClock f })).flashEnter f
      (s4.slotBegin 0).mboxReq opBootKeyReq []

/-! ### The image (R414 to R417) -/

def imgBytes (b : List Byte) : Nat := (wordAt b 2).toNat

/-- H0 to H6 (R414). -/
def headerOk (b : List Byte) : Bool :=
  let h := wordAt b
  let n := imgBytes b
  let off := (h 6).toNat
  h 0 == 0x7AF0E3A0#32 && fld (h 1) 15 0 == 1 && decide (n % 64 = 0 ∧ 512 ≤ n ∧ n ≤ 0x2000000 - 128) &&
    decide (1 ≤ (h 5).toNat) && decide (off % 64 = 0 ∧ 256 ≤ off)

/-- PART and MIN_STEP. -/
def State.partOk (s : State) (b : List Byte) : Bool :=
  let h3 := wordAt b 3
  (fld h3 31 16 == 0 || fld h3 31 16 == s.get F.eidPartPart) && decide (fld h3 15 8 ≤ s.get F.eidStepStep)

/-- The measurement: SHA-384 of the bytes before the signature. -/
def imgDigest (b : List Byte) : List Byte := sha384 (b.take (imgBytes b))

def signatureOk (b : List Byte) : Bool :=
  let n := imgBytes b
  ecdsaVerify (beNat (slice b 32 48)) (beNat (slice b 80 48)) (imgDigest b) (beNat (slice b n 48)) (beNat (slice b (n + 48) 48))

/-- The records of an image: its record area from RECORD_OFF, END last, fewer than 64 zero bytes after it. -/
def imageRecs (b : List Byte) : Option (List ImgRec) :=
  match imgRecs (wordAt b 5).toNat ((b.take (imgBytes b)).drop (wordAt b 6).toNat) with
  | some (rs, rest) => if rest.length < 64 && rest.all (fun x => x == 0) then some rs else none
  | none => none

/-- Codes 8 and 9: 0 when the records pass, with the resource of a conflict. -/
def State.recordsCode (s : State) (b : List Byte) : Nat × Nat × Nat :=
  match imageRecs b with
  | none => (8, 0, 0)
  | some rs =>
    let t := s.applyRecs rs
    if !rs.all (fun r => r.ok s.fuses.e24) || !timersOk rs || !t.limitsOk then (8, 0, 0)
    else match t.imageConflict (s.word (R.linkRtIdx 0)) rs with
      | some (k, i) => (9, k, i)
      | none => (0, 0, 0)

/-- Codes 5 to 9, in R416's order. -/
def State.imageCode (s : State) (b key : List Byte) : Nat × Nat × Nat :=
  if sha384 (slice b 32 96) ≠ key then (5, 0, 0)
  else if !signatureOk b then (6, 0, 0)
  else if (wordAt b 4).toNat < s.boot.minSvn then (7, 0, 0)
  else s.recordsCode b

/-- The measurement is written and sent before any record applies (R417). -/
def State.acceptImage (s : State) (b : List Byte) : State :=
  let ws := bytesWords 12 (imgDigest b)
  let s1 := ws.zipIdx.foldl (fun t p => t.setWord (R.bootMeas p.2) p.1) s
  let s2 := ((s1.put F.bootSlotSvn (fld (wordAt b 4) 15 0)).put F.bootSlotValid 1).put F.bootSlotSlot s.boot.slot
  let s3 := (s2.setWord R.bootImgVer (wordAt b 7)).updBoot (fun x => { x with held := none, accepted := some b })
  s3.mboxReq opMeasure (ws ++ [at_ 0 s.boot.slot, wordAt b 4])

/-- The image and the key hash are both there: it is judged. -/
def State.judge (s : State) : State :=
  match s.boot.held, s.boot.keyHash with
  | some b, some key =>
    let (code, kind, id) := s.imageCode b key
    if code = 0 then s.acceptImage b
    else
      let s1 := if code = 9 then (s.put F.bootStatusResKind kind).put F.bootStatusResId id else s
      s1.slotFails code
  | _, _ => s

/-- IMAGE_SLOT_READ_DONE: header first (R424), then the image and its signature, all within the slot's 32 MiB (R413, R414). -/
def State.imageSlotRead (s : State) (data : Option (List Byte)) : State :=
  if s.get F.bootStageStage != 1 || !s.boot.reading then s
  else
    let s1 := s.updBoot (fun b => { b with reading := false })
    match data with
    | none => s1.slotFails 2
    | some b =>
      if b.length < 256 then s1.slotFails 2
      else if !headerOk b then s1.slotFails 3
      else if !s.partOk b then s1.slotFails 4
      else
        let s2 := s1.emit (.flashRead (slotBase s.boot.slot) (imgBytes b + 96))
        if b.length < imgBytes b + 96 then s2.slotFails 2
        else (s2.updBoot (fun x => { x with held := some b })).judge

/-! ### Preparation, S2 and S3 (R411, R421, R426) -/

/-- The features whose duration is PERIOD are armed at BOOT_LOCK (R453). -/
def State.armPeriodic (s : State) (feat : Nat) : State :=
  match s.timerOf feat with
  | some t => s.arm feat (s.get (F.tmrCfgPeriod t))
  | none => s

/-- Such a timer expires: again from its expiry when PERIODIC, else it stops (R453). -/
def State.periodNext (s : State) (feat : Nat) : State :=
  match s.timerOf feat with
  | some t => if s.flag (F.tmrCfgPeriodic t) then s.rearm feat (s.get (F.tmrCfgPeriod t)) else s.disarm feat
  | none => s

/-- The records are applied and BOOT_LOCK is set; the flash port is let go and preparation begins. A zeroisation pass
that has ended already has laid the Hive out by the image's layout. An E0_MV that the image loads becomes the requested
setpoint at once (R50, R439). -/
def State.applyImage (s : State) (b : List Byte) : State :=
  let s1 := (s.applyRecs ((imageRecs b).getD [])).put F.bootLockLock 1
  let s2 := (s1.updChip (fun c => { c with flashDriven := false })).put F.bootStagePrep 1
  let s3 := { s2.updBoot (fun x => { x with accepted := none, prepAt := some s.chip.now }) with
              keep := { s2.keep with started := true } }
  let s4 := if s3.flag F.hiveZeroBusy then s3 else s3.zeroLists
  let mv := clampNat (s4.get F.clkVsetE0Mv) 650 850
  let s5 := if s4.get F.clkStateVddMv = mv then s4 else (s4.emit (.setpoint mv)).put F.clkStateVddMv mv
  (s5.armPeriodic tmKeeper).armPeriodic tmTel

/-- KEEPER_READY_TIMEOUT (code 12). -/
def State.keeperTimeout (s : State) : State :=
  match s.boot.prepAt with
  | some t =>
    if s.flag F.bootStagePrep && decide (t + 20000000 ≤ s.chip.now) then s.startFail 12 else s
  | none => s

/-- Entry to S3. -/
def State.enterS3 (s : State) : State :=
  let t := (s.setStage 3).stampStage 2
  if t.get F.rosterStatusDrain = 4 then t else t.linksOn

/-- Entry to S2: island mode, with die-port credits and the LEDs. -/
def State.enterS2 (s : State) : State :=
  let s1 := ((s.put F.bootStagePrep 0).setStage 2).stampStage 1
  let s2 := { (s1.firstCredits.updChip (fun c => { c with ledOk := true })).updBoot (fun b => { b with prepAt := none }) with
              power := { s1.power with jobIdleAt := some s.chip.now } }
  let s3 := if s2.chip.drainLatched then s2.drainAct else s2
  if s3.flag F.bootCtlFleet then s3.enterS3 else s3

/-- PREPARATION_DONE. -/
def State.prepared (s : State) (selftestOk : Bool) : State :=
  if !s.flag F.bootStagePrep then s
  else if !selftestOk then s.startFail 11
  else if s.flag F.hiveZeroBusy then s
  else s.enterS2

/-- What a host write of BOOT_CTL sets off: FLEET at 1 in S2 enters S3. -/
def State.fleetWritten (s : State) : State :=
  if s.flag F.bootCtlFleet && s.get F.bootStageStage == 2 then s.enterS3 else s

/-! ### Messages from the root of trust (R477) -/

/-- BOOT_KEY_RSP to an outstanding request. -/
def State.bootKeyRsp (s : State) (m : List Word) : State :=
  if s.get F.bootStageStage = 1 ∧ s.mbox.any (fun r => r.op == opBootKeyReq && r.tag == mboxTagOf m) then
    ((s.mboxAnswered opBootKeyReq (mboxTagOf m)).updBoot (fun b => { b with
      keyHash := some (wordsBytes ((m.drop 1).take 12)), minSvn := (m.getD 13 0).toNat })).judge
  else s

/-- MEASURE_ACK to an outstanding request. -/
def State.measureAck (s : State) (m : List Word) : State :=
  match s.boot.accepted with
  | some b =>
    if s.mbox.any (fun r => r.op == opMeasure && r.tag == mboxTagOf m) then
      (s.mboxAnswered opMeasure (mboxTagOf m)).applyImage b
    else s
  | none => s

/-- A message from the root of trust acts by its OP; one that fails its check or carries no OP of this direction is
discarded and counted. -/
def State.rotMessage (s : State) (m : List Word) : State :=
  if !mboxOk m then s.inc R.secMboxErrCnt 1
  else if mboxOp m = 0x81 then s.bootKeyRsp m
  else if mboxOp m = 0x82 then s.measureAck m
  else if mboxOp m = 0x83 then s.keySet m
  else s.inc R.secMboxErrCnt 1

/-- Requests that have waited 10 ms. -/
def State.mboxLate (s : State) : List MboxReq := s.mbox.filter (fun r => decide (r.sent + 10000000 ≤ s.chip.now))

/-- MAILBOX_TIMEOUT: each late request is counted, and repeated except in S1. -/
def State.mboxTimeout (s : State) : State :=
  let late := s.mboxLate
  if late.isEmpty then s
  else
    let s1 := s.inc R.secRotTmoCnt late.length
    if s.get F.bootStageStage = 1 then
      (if s1.boot.held.isSome then s1.slotCode 10 else s1).startFail 10
    else
      let s2 := late.foldl (fun t r => t.emit (.mbox (mboxMsg r.op r.tag r.words))) s1
      { s2 with mbox := s2.mbox.map (fun r => if r.sent + 10000000 ≤ s.chip.now then { r with sent := s.chip.now } else r) }

end Sys2Proof.Machine
end

