-- ==== Sys2Proof/Machine/Upsets.lean ====
section
/-! DEFINITION. Machine/Upsets.lean: what the readers of damaged queue words do (R353, R462, R463), the scrubbing of the
Keeper memories (R463) and the fatal error (R473). -/

namespace Sys2Proof.Machine

/-- The combine records of Ladle a are read. -/
def State.combineRead (s : State) (a : Nat) (act : State → State) : State :=
  if s.inStep then s.checked (.combine a) (8 * a) id act else act s

/-- The capacity-pass state of a (layer, half) is read. -/
def State.capRead (s : State) (l h : Nat) (act : State → State) : State :=
  if (s.half l h).cap = 1 then s.checked (.capPass l h) 0 id act else act s

/-- A header of the retry buffer of link n: an uncorrectable one kills the link (R463). True when it has. -/
def State.retryUpsets (s : State) (n : Nat) : State × Bool :=
  let (ce, s1) := s.meet (.retryHdr n false)
  let s2 := if ce then s1.inc R.rasCeCnt 1 else s1
  let (ue, s3) := s2.meet (.retryHdr n true)
  if ue then ((s3.inc R.rasUeCnt 1).enterDead n, true) else (s3, false)

/-- FLIT_SLOT_GRANT: the descriptor and the retry-buffer header that the grant reads are checked. -/
def State.slotGrant (s0 : State) (n cyc : Nat) : State :=
  let s := s0.settleSlot n
  let t := (s.link n).tx
  if s.linkState n ≠ lsActive then (s.grantSlot n cyc).helloTry n
  else if 0 < t.resend then
    (match s.retryUpsets n with
      | (s1, true) => s1
      | (s1, false) => s1.grantSlot n cyc)
  else match s.pickVc n with
    | some (v, _) => s.checked (.desc n) (n / 2)
        (fun u => u.updTx n (fun x => { x with q := updAt x.q v (·.drop 1) })) (fun u => u.grantSlot n cyc)
    | none => s.grantSlot n cyc

/-! ### Keeper memories (R463, R473) -/

/-- R473: a fatal error. -/
def State.fatal (s : State) : State :=
  let live := s.jobState == jsLoading || s.stepping || s.jobState == jsSaving || s.jobState == jsFaulted
  let s1 := if live then s.abortNow else if s.flag F.rasStatusPartBusy then s else s.partitionReset false s.job.after
  ((s1.put F.rasStatusFatal 1).put F.rasStatusLastAction 3).raise evFault

/-- KEEPER_SCRUB: one finding in one Keeper's memory. -/
def State.scrub (s : State) (r : ScrubResult) : State :=
  let s1 := { s with keep := { s.keep with scrubbed := s.chip.now } }
  match r with
  | .clean => s1
  | .corrected n => s1.inc R.rasCeCnt n
  | .uncorrectable => (s1.inc R.rasUeCnt 1).fatal

/-- The Head Keeper scrubs all Keepers once per second in E0 and E1, once the Keepers run and unless it is halted (R496): one tick
per round. -/
def State.scrubDue (s : State) : Bool :=
  s.keep.started && s.keeperOn 8 && decide (s.get F.clkStateState ≤ 1) &&
    decide (s.keep.scrubbed = s.chip.now ∨ s.keep.scrubbed + 1000000000 ≤ s.chip.now)

end Sys2Proof.Machine
end

