-- ==== Sys2Proof/Machine/Window.lean ====
section
/-! DEFINITION. Machine/Window.lean: the control window as host ports see it (R6 to R10, R36, R487 to R491): reads, writes
and what a write of each register sets off. -/

namespace Sys2Proof.Machine

/-! ### Which accesses answer -/

/-- The offset lies inside the extent of a block (R486). -/
def inBlock (off : Nat) : Bool :=
  decide (off < 0x6000) || ([1, 4, 6] : List Nat).contains (off / 0x10000) ||
    (([2, 3, 5, 7, 8, 9, 10, 11, 15] : List Nat).contains (off / 0x10000) && decide (off % 0x10000 < 0x1000))

/-- Reads zero, ignores writes and is not counted (R2, R36, R480, R487). -/
def State.closed (s : State) (off : Nat) : Bool := inBlock off && !s.answers off

/-- R6. -/
def State.badAccess (s : State) : State := s.inc R.rasBadaccCnt 1

/-! ### What a read shows -/

/-- ROSTER_SERVE: is expert e of the selected layer served by this package? (R232, R257) Its entry is read against the members of
the copy's header, and counted where it fails (R234). -/
def State.servesHere (s : State) (copy : Nat) (ms : List Nat) (e : Nat) : Bool × State :=
  let l := s.get F.rosterServeSelLayer
  if !decide (e < s.layerN l) then (false, s)
  else if !s.member then (true, s)
  else
    let (ps, s1) := s.readEntry copy ms l e
    (ps.contains s.self, s1)

/-- ROSTER_SERVE[i], and the state after the selected copy's header and the entries were read. DESIGN CHOICE (assumption row 96):
under a header that fails its check no entry is read, and none is served. -/
def State.serveWord (s : State) (i : Nat) : Word × State :=
  let staged := s.flag F.rosterServeSelCopy
  if !decide (s.get F.rosterServeSelLayer < s.modelLayers) || (staged && (!s.member || s.get F.rosterEpochStaged == 0)) then (0, s)
  else
    let copy := if staged then 1 - s.activeCopy else s.activeCopy
    let (ms, s0) := if s.member then s.readMembers copy else ([], s)
    if s.member && ms.isEmpty then (0, s0)
    else (List.range 32).foldl (fun p b =>
      let (on, t) := p.2.servesHere copy ms (32 * i + b)
      (if on then p.1 ||| at_ b 1 else p.1, t)) ((0 : Word), s0)

/-- A register whose value a read of the Hive gives (ROSTER_SERVE[i]). -/
def serveIdx (off : Nat) : Option Nat :=
  if 0x80100 ≤ regHome off ∧ regHome off < 0x80180 then some ((regHome off - 0x80100) / 4) else none

/-- The value that a register holds, as the window shows it. -/
def State.shown (s : State) (off : Nat) : Word :=
  let o := regHome off
  if 0x60000 ≤ o ∧ o < 0x70000 ∧ o % 0x400 = 4 then
    setFld (s.view o) 15 8 (s.link ((o - 0x60000) / 0x400)).tx.retry.length
  else if 0x50100 ≤ o ∧ o < 0x50200 ∧ o % 0x40 = 0 then setFld (s.view o) 22 22 (b2n (s.ladleBusy ((o - 0x50100) / 0x40)))
  else s.view o

/-- A read by a host port, its value in rdata; reading the halves of a pair follows R9. -/
def State.windowRead (s : State) (off : Nat) : State :=
  if off % 4 ≠ 0 then { s.badAccess with rdata := 0 }
  else if s.closed off then { s with rdata := 0 }
  else if (regSpec off).isNone then { s.badAccess with rdata := 0 }
  else if isPairLo off then
    { s with rdata := s.shown off, pairCap := SMap.set noneAt s.pairCap off (some (s.shown (off + 4))) }
  else if isPairHi off then
    match SMap.get noneAt s.pairCap (off - 4) with
    | some w => { s with rdata := w, pairCap := SMap.set noneAt s.pairCap (off - 4) none }
    | none => { s with rdata := s.shown off }
  else match serveIdx off with
    | some i => { (s.serveWord i).2 with rdata := (s.serveWord i).1 }
    | none => { s with rdata := s.shown off }

/-! ### What a write does -/

/-- The word in force before a write stays in force for a while: until the next flit slot (R302), gap (R458) or (layer, half)
of a Sieve (R102), or until the next step boundary, where the chapter says so, and while a job is RUNNING where it names no
time (R490). -/
def State.holdWord (s : State) (r : RegSpec) (off : Nat) : State :=
  if slotReg off || gapReg off then s.deferSlot off
  else if r.ilrw = 0 || ownTimeReg off then s
  else if sieveCtlReg off || s.jobState == jsRunning || (boundaryReg off && s.stepping) then s.defer off
  else s

/-- The fields that the access codes allow. -/
def State.plainWrite (s : State) (r : RegSpec) (off : Nat) (v : Word) : State :=
  (s.holdWord r off).setWord off (s.hostWord r off v)

/-- WHISK_SCALE_SET (R154): LAYER and OFFSET, with PEND. -/
def State.scaleWrite (s : State) (v : Word) : State :=
  s.setWord R.whiskScaleSet (at_ 16 1 ||| (v &&& 0xFFFF#32))

/-- CLU_FLUSH (R216, R217): a request, or the widening of a flush of one stream. SCOPE and STREAM hold what was written (R7). DESIGN
CHOICE (assumption row 96): one written between two steps is in force at once and to the end of the next step. -/
def State.flushWrite (s : State) (c : Nat) (v : Word) : State :=
  let sc := fld v 31 30
  if s.flag (F.cluFlushActive c) then
    if s.get (F.cluFlushScope c) = 1 ∧ 2 ≤ sc then
      s.setWord (R.cluFlush c) (at_ 30 sc ||| at_ 29 1 ||| at_ 0 (fld v 13 0))
    else s
  else
    s.setWord (R.cluFlush c) (at_ 30 sc ||| at_ 29 (b2n (sc != 0)) ||| at_ 0 (fld v 13 0))

/-- CLU_EVT_RD (R226): COUNT follows the read index. -/
def State.evtRdWrite (s : State) (c : Nat) (v : Word) : State :=
  let s1 := s.put (F.cluEvtRdRd c) (fld v 5 0)
  s1.put (F.cluEvtWrCount c) ((s.get (F.cluEvtWrIndex c) + 64 - fld v 5 0) % 64)

/-- LINK_RT_DATA (R286, R302): the entry that LINK_RT_IDX names. -/
def State.routeWrite (s : State) (v : Word) : State :=
  if s.flag F.bootLockLock then
    { s with routes := SMap.set routeReset s.routes (s.get (F.linkRtIdxMember 0)) v }.flushLimbo
  else s

/-- DBG_ADDR. -/
def State.dbgAddr (s : State) : Nat :=
  2 ^ 32 * s.get F.dbgAddrHiAddr + 32 * s.get F.dbgAddrLoAddr

/-- DBG_CTL (R495): GO starts an access, with the address, the direction and the data of that moment; while one runs, GO is
ignored. -/
def State.dbgCtlWrite (s : State) (v : Word) : State :=
  if !bit v 31 then s.setWord R.dbgCtl (v &&& 0xC0000000#32)
  else if s.flag F.dbgStatusBusy then s
  else
    let data := if bit v 30 then some ((List.range 8).flatMap (fun w => wordBytes (s.word (R.dbgData w)))) else none
    let t := (s.setWord R.dbgCtl (v &&& 0xC0000000#32)).put F.dbgStatusBusy 1
    { t with bus := { t.bus with dbgGo := some (s.dbgAddr, data) } }

/-- TEL_CTL (R493). -/
def State.telCtlWrite (s : State) (v : Word) : State :=
  let s1 := s.setWord R.telCtl (v &&& 1#32)
  if bit v 0 then { s1 with tel := { s1.tel with request := true } } else s1

/-- A write of one register that answers. -/
def State.regWrite_ (s : State) (p : Nat) (r : RegSpec) (off : Nat) (v : Word) : State :=
  let c := (off - 0x40000) / 0x800
  let inClu := decide (0x40000 ≤ off ∧ off < 0x50000)
  if off = R.jobCtl then s.jobCtl p v.toNat
  else if off = R.whiskScaleSet then s.scaleWrite v
  else if inClu && off % 0x800 == 0xC then s.flushWrite c v
  else if inClu && off % 0x800 == 0x64 then s.evtRdWrite c v
  else if regHome off = R.linkRtData 0 then s.routeWrite v
  else if off = R.dbgCtl then s.dbgCtlWrite v
  else if off = R.telCtl then s.telCtlWrite v
  else if off = R.dbgKeeper then (s.plainWrite r off v).headResumes
  else if off = R.bootCtl then (s.plainWrite r off v).fleetWritten
  else s.plainWrite r off v

/-- Both halves of a pair together (R9). -/
def State.pairCommit (s : State) (off : Nat) (v : Word) : State :=
  let half := fun (t : State) (o : Nat) (w : Word) => match regSpec o with
    | some r => t.plainWrite r o w
    | none => t
  match SMap.get noneAt s.pairHeld (off - 4) with
  | some w =>
    let s1 := { s with pairHeld := SMap.set noneAt s.pairHeld (off - 4) none }
    half (half s1 (off - 4) w) off v
  | none => half s off v

/-- A write by host port p. -/
def State.hostWrite (s : State) (p off : Nat) (v : Word) : State :=
  if off % 4 ≠ 0 then s.badAccess
  else if s.closed off then s
  else match regSpec off with
    | none => s.badAccess
    | some r =>
      if isPairLo off then { s with pairHeld := SMap.set noneAt s.pairHeld off (some v) }
      else if isPairHi off then s.pairCommit off v
      else s.regWrite_ p r off v

/-- REG_BAD_ACCESS: an access that R6 does not support, or one that turns out to be supported. DESIGN CHOICE (assumption
row 96): the size and the alignment are checked first, so an unaligned or other than 32-bit access is counted also inside a
range that R36, R480 or R487 leaves uncounted. -/
def State.anyAccess (s : State) (dir : AccDir) (off size : Nat) : State :=
  let bad := decide (size ≠ 4 ∨ off % 4 ≠ 0) || (!s.closed off && (regSpec off).isNone)
  match dir with
  | .read => if bad then { s.badAccess with rdata := 0 } else s.windowRead off
  | .write => if bad then s.badAccess else s

end Sys2Proof.Machine
end

