-- ==== Sys2Proof/Machine/DebugTel.lean ====
section
/-! DEFINITION. Machine/DebugTel.lean: telemetry (R493), the Keeper tick (R451), debug accesses (R480, R495), Hive refresh
(R188, R189) and served allocations (R183). -/

namespace Sys2Proof.Machine

/-! ### Telemetry and ticks -/

/-- The live counters in the order of *TEL registers*, pairs as two words. -/
def Tel.words (t : Tel) : List Word :=
  let n := fun (v : Nat) => (BitVec.ofNat 32 v : Word)
  let pair := fun (v : Nat) => [n v, n (v / 2 ^ 32)]
  [n t.steps, n t.layers] ++ pair t.tokens ++ pair t.flitTx ++ pair t.flitRx ++ pair t.dieRx ++ pair t.dieTx ++
    pair t.hiveRd ++ pair t.hiveWr ++ [n t.e0Us, n t.stepMax, n t.stepSum]

/-- A snapshot (R493). -/
def State.telSnapshot (s : State) : State :=
  let s1 := s.tel.words.zipIdx.foldl (fun t p => t.setWord (R.telVal p.2) p.1) s
  let s2 := (s1.setPair R.telSnapTLo s.chip.now).inc R.telSnapSeq 1
  { s2 with tel := { s2.tel with stepMax := 0, stepSum := 0, request := false } }

/-- TEL_SAMPLE: the timer has expired, or the host has asked. -/
def State.telSampleDue (s : State) : State :=
  if s.due tmTel then (s.periodNext tmTel).telSnapshot
  else if s.tel.request then s.telSnapshot
  else s

/-- KEEPER_TICK: the region Keepers run in E0 and E1, so it wakes the engine from E2 and E3 (R438, R443 source 4; assumption row
113). The timer goes on while every Keeper is halted, and the tick reaches none of them (R496). -/
def State.keeperTickDue (s : State) : State :=
  if s.due tmKeeper then
    if (List.range 9).any (fun k => s.hasKeeper k && s.keeperOn k) then
      let s1 := if 2 ≤ s.get F.clkStateState then s.startWake 4 else s
      (s1.periodNext tmKeeper).emit .keeperTick
    else s.periodNext tmKeeper
  else s

/-! ### Debug accesses to the Hive -/

/-- The Hive serves requesters: in E0 and E1, with no zeroisation pass running (R190, R192, R439). -/
def State.hiveServes (s : State) : Bool :=
  s.chip.fastOn && !s.flag F.hiveStatusSelfref && !s.flag F.hiveZeroBusy && decide (s.get F.clkStateState ≤ 1)

/-- The 32 B at an address: a word with an uncorrectable error delivers an open value (R160), and so does a word of a tile
record in use, whose layout is internal (R220). -/
def State.dbgBytes (s : State) (addr : Nat) : List Byte :=
  ([0, 1, 2, 3] : List Nat).flatMap (fun j =>
    let a := addr + 8 * j
    if s.ueIn a 8 then leBytes 8 (Config.badWord (s.freeCtr + j)).toNat
    else if s.inTileRec a then leBytes 8 (Config.tileWord (s.freeCtr + j)).toNat
    else s.hget a 8)

/-- A read: the bytes, whether it failed, and the state after it. -/
def State.dbgRead_ (s : State) (addr : Nat) : List Byte × Bool × State :=
  let bs := s.dbgBytes addr
  let (s1, ue) := (s.emergency (channelOf addr) 1).probe addr 32
  (bs, ue, { s1.telRd 1 with freeCtr := s1.freeCtr + 4 })

/-- A write, with consistent check bits. -/
def State.dbgWrite_ (s : State) (addr : Nat) (bs : List Byte) : State :=
  ((s.emergency (channelOf addr) 1).hput addr bs).telWr (ceilDiv bs.length 32)

/-- The access that GO started is over. -/
def State.dbgOver (s : State) (failed : Bool) : State :=
  let t := (s.put F.dbgStatusBusy 0).put F.dbgStatusErr (b2n failed)
  { t with bus := { t.bus with dbgGo := none } }

/-- DBG_ACCESS_DONE (R495). -/
def State.dbgDone (s : State) : State :=
  if !s.flag F.dbgStatusBusy || !s.hiveServes then s
  else match s.bus.dbgGo with
    | none => s
    | some (a, some data) => (s.dbgWrite_ a data).dbgOver false
    | some (a, none) =>
      let (bs, ue, s1) := s.dbgRead_ a
      ((List.range 8).foldl (fun t w => t.setWord (R.dbgData w) (wordAt bs w)) s1).dbgOver ue

/-! ### The debug port (R480) -/

def keeperSize : Nat := 524288

def State.keeperMem (s : State) (k : Nat) : SMap Byte := s.keep.mem.getD k []

/-- A debug access to the Hive waits until the Hive serves again: for the next wake (R190), or for the end of a zeroisation
pass, which stops every requester but refresh (R192). -/
def State.debugWait (s : State) (r : DbgReq) : State := { s with bus := { s.bus with dbgWait := s.bus.dbgWait ++ [r] } }

/-- A request that the OPEN state lets in; nothing answers outside the Hive, the Keepers and the DBG block. -/
def State.debugServe (s : State) : DbgReq → State
  | .hiveRead a =>
    if !s.hiveServes then s.debugWait (.hiveRead a)
    else if hiveSize < a + 32 then s.emit (.debug [])
    else
      let (bs, _, s1) := s.dbgRead_ a
      s1.emit (.debug bs)
  | .hiveWrite a data =>
    if !s.hiveServes then s.debugWait (.hiveWrite a data)
    else if hiveSize < a + data.length then s.emit (.debug [])
    else s.dbgWrite_ a data
  | .keeperRead k a =>
    if s.hasKeeper k && decide (a + 8 ≤ keeperSize) then s.emit (.debug (SMap.read zeroByteAt (s.keeperMem k) a 8))
    else s.emit (.debug [])
  | .keeperWrite k a data =>
    if s.hasKeeper k && decide (a + data.length ≤ keeperSize) then
      { s with keep := { s.keep with mem := updAt s.keep.mem k (fun m => SMap.write zeroByteAt m a data) } }
    else s.emit (.debug [])
  | .regRead off =>
    if inDbg off then
      let s1 := s.windowRead off
      s1.emit (.debug (wordBytes s1.rdata))
    else s.emit (.debug [])
  | .regWrite off v => if inDbg off then s.hostWrite 0 off v else s.emit (.debug [])

/-- DEBUG_PORT_REQUEST: refused and counted outside OPEN. -/
def State.debugPort (s : State) (r : DbgReq) : State :=
  if s.get F.secLifecycleState = 0 then s.debugServe r else s.inc R.secDbgDenyCnt 1

/-- The Hive serves again: the debug accesses that waited for it are made, in order. -/
def State.debugDrain (s : State) : State :=
  if s.hiveServes then s.bus.dbgWait.foldl State.debugPort { s with bus := { s.bus with dbgWait := [] } } else s

/-! ### Refresh and waiting allocations -/

/-- HIVE_REFRESH: in E0 and E1, when the channel's phase has come (R189). -/
def State.refresh (s : State) (ch : Nat) : State := if s.refreshDue ch then s.startRefresh ch else s

/-- The next waiting request of a pool: own side before peer side, in arrival order (R183). -/
def State.nextWaiter (s : State) (q : Nat) : Option AllocReq :=
  let ws := s.hive.waiting.filter (fun r => r.pool == q)
  match ws.find? (·.own) with
  | some r => some r
  | none => ws.head?

/-- A link's VC2 head is a manifest. -/
def State.manifestHead (s : State) (n : Nat) : Bool :=
  match s.rxHead n 2 with
  | some (_, p) => W8.ttype (p.hdr 0) == 3
  | none => false

/-- The source of a request tries again. -/
def State.retryAlloc (s : State) : AllocSrc → State
  | .hsPort a => s.pumpHs a ((s.port a).hs.length + 1)
  | .resPort a => s.pumpRes a (s.resFuel a) 0
  | .whisk a => s.whiskToken a
  | .rx n v =>
    if v = 1 then (s.swarmUpsets.chunkRx n).barGo
    else if v = 3 then s.packetRead n 3 (fun u => u.resultRx n)
    else s.packetRead n 2 (fun u => (if u.manifestHead n then u.manifestRx n else u.dispatchRx n).closeDone)
  | .swmPort a =>
    let s1 := s.swarmUpsets
    if a < 4 then (s1.pumpSwm a ((s1.port a).swm.length + 1)).swarmSettle.barGo
    else if a = 4 then s1.swarmOpen.barGo else s1.revContribute
  | .clu c => s.appendRead c (fun u => u.tileAppend c)
  | .hand c => s.handover c

/-- Requests whose source has gone leave the queue. -/
def State.purgeWaiters (s : State) : State :=
  { s with hive := { s.hive with waiting := s.waiters } }

/-- HIVE_ALLOC_GRANT: the waiting cycles are counted and the first waiter of the pool is served. -/
def State.allocGrant (s : State) (q waited : Nat) : State :=
  let s1 := s.purgeWaiters
  match s1.nextWaiter q with
  | some r => (s1.inc R.hiveWaitCnt waited).retryAlloc r.src
  | none => s1

end Sys2Proof.Machine
end

