-- ==== Sys2Proof/Machine/Ops.lean ====
section
/-! DEFINITION. Machine/Ops.lean: the frame of every command: whether the instance it names exists, whether the part of the
engine it concerns has its clocks, and the control errors of its end. -/

namespace Sys2Proof.Machine

/-- What a command answers. -/
abbrev Result := Host.Outcome State Fault Refusal

/-! ### Which part of the engine a command concerns -/

/-- erp_rst_n is released. -/
def State.powered (s : State) : Bool := !s.chip.inReset

/-- The fast clocks have been started (R36, R409). -/
def State.clocked (s : State) : Bool := s.powered && s.chip.fastOn

/-- The link layer is clocked: E0 and E1 (R299, R439, R444). -/
def State.linkClocked (s : State) : Bool := s.clocked && decide (s.get F.clkStateState ≤ 1)

/-- The units are at work: E0 (R439). -/
def State.atWork (s : State) : Bool := s.clocked && s.awake

/-- The Hive can be written: in E0 and E1, not in self-refresh (R190, R439). -/
def State.hiveUp (s : State) : Bool := s.clocked && !s.flag F.hiveStatusSelfref && decide (s.get F.clkStateState ≤ 1)

/-! ### Expiries (R455) -/

/-- The rows of the table that are a timer's expiry. -/
def timerRow : Instr → Bool
  | .keeperReadyTimeout | .dmaReadTimeout _ | .stepDeadlineExpiry | .jobIdleTimeout | .barrierTimeout | .lossDetect _
  | .isolation | .joinRetry | .linkTrainTimeout _ | .linkRetryTimeout _ | .linkAliveTimeout _ | .linkCreditStall _ _
  | .linkDeadTimeout _ | .mailboxTimeout | .wakeTimer | .earlyWake | .rosterRevExpiry | .recipePoll | .telSample
  | .keeperTick | .drainLedBlink | .e1Entry | .e2Entry | .e3Entry | .linkIdleHoldEnd _ | .linkHelloTimer _ | .linkEchoTimer _ _ | .linkKeepalive _ => true
  | _ => false

/-- Every event of the present AON tick has been taken: time advances on an empty queue (assumption row 2), so the commands
that wait are the tick's own, and none of them is left but expiries. -/
def State.cycleOver (s : State) : Bool := s.pending.all timerRow

/-- An expiry: the timer compares after the events of its tick (R455), so while one waits it compares at the tick's end. -/
def State.onExpiry (s : State) (c : Instr) (go : Host.Outcome State Fault Refusal) : Host.Outcome State Fault Refusal :=
  if s.cycleOver then go else .next { s with expired := s.expired ++ [c] }

/-! ### Running a command -/

/-- Run a command's effect where its part of the engine is there; elsewhere nothing happens. -/
def State.run (s : State) (ok : Bool) (f : State → State) : Result := if ok then (f s).fin else .next s

/-- The same for a command that names an instance: one that the part lacks is no event at all (R2). -/
def State.runAt (s : State) (here : Bool) (ok : Bool) (f : State → State) : Result :=
  if here then s.run ok f else .fault .absentInstance

def State.hasRegion (s : State) (a : Nat) : Bool := decide (a < s.nRegions)
def State.hasCluster (s : State) (c : Nat) : Bool := decide (c < s.nClusters)
def State.hasLink (s : State) (n : Nat) : Bool := decide (n < s.nLinks)

/-- The four host ports (R37, R404). -/
def hasHostPort (p : Nat) : Bool := decide (p < 4)

end Sys2Proof.Machine
end

