-- ==== Sys2Proof/Machine/ExecBoot.lean ====
section
/-! DEFINITION. Machine/ExecBoot.lean: the meanings of the reset, start and sideband commands. -/

namespace Sys2Proof.Machine

/-- R51. -/
def execErpRstNAssert (s : State) : Result := .next s.assertReset

/-- R409. -/
def execErpRstNRelease (s : State) : Result := .next s.releaseReset

/-- R51: a fall of erp_pwr_good acts as an assertion of erp_rst_n. -/
def execErpPwrGoodFall (s : State) : Result := .next s.assertReset

/-- R409, R43. -/
def execS1Entry (flash : FlashAd) (s : State) : Result := s.run s.powered (fun t => t.s1Entry flash)

/-- R416, R477. -/
def execBootKeyRsp (msg : List Word) (s : State) : Result := s.run s.powered (fun t => t.rotMessage msg)

/-- R416 to R424. -/
def execImageSlotReadDone (data : Option (List Byte)) (s : State) : Result := s.run s.powered (fun t => t.imageSlotRead data)

/-- R477, R421. -/
def execMeasureAck (msg : List Word) (s : State) : Result := s.run s.powered (fun t => t.rotMessage msg)

/-- R423 code 12. -/
def execKeeperReadyTimeout (s : State) : Result :=
  s.onExpiry .keeperReadyTimeout (s.run s.powered State.keeperTimeout)

/-- R411, R409. -/
def execPreparationDone (selftestOk : Bool) (s : State) : Result := s.run s.powered (fun t => t.prepared selftestOk)

/-- R192. -/
def execHiveZeroisationDone (s : State) : Result := s.run s.hiveUp (fun t => t.zeroisationDone.debugDrain)

/-- R426. -/
def execBootFleetWrite (p : Nat) (v : Word) (s : State) : Result :=
  s.runAt (hasHostPort p) s.powered (fun t => t.hostWrite p R.bootCtl v)

/-- R46, R364. -/
def execSyncInEdge (highNs : Nat) (s : State) : Result := s.run s.powered (fun t => t.syncEdge highNs)

/-- R255. -/
def execSvcDrain (s : State) : Result := s.run s.powered State.svcDrain

/-- R255. -/
def execDrainLedBlink (s : State) : Result :=
  s.onExpiry .drainLedBlink (s.run s.powered State.ledBlink)

/-- R47. -/
def execThmAlert (s : State) : Result := s.run s.powered State.thermal

/-- R34. -/
def execFecCorrPulse (n : Nat) (s : State) : Result :=
  s.runAt (s.hasLink n) s.powered (fun t => t.incLink n lkFec 1)

end Sys2Proof.Machine
end

