-- ==== Sys2Proof/Machine/ExecHost.lean ====
section
/-! DEFINITION. Machine/ExecHost.lean: the meanings of the control-window, telemetry, debug and mailbox commands. -/

namespace Sys2Proof.Machine

/-- A write by host port p of one register. -/
def State.portWrite (s : State) (p off : Nat) (v : Word) : Result :=
  s.runAt (hasHostPort p) s.powered (fun t => t.hostWrite p off v)

/-- R7. -/
def execRegWrite (p : Nat) (off : Nat) (v : Word) (s : State) : Result := s.portWrite p off v

/-- R6. -/
def execRegBadAccess (p : Nat) (dir : AccDir) (off : Nat) (size : Nat) (s : State) : Result :=
  s.runAt (hasHostPort p) s.powered (fun t => t.anyAccess dir off size)

/-- R9. -/
def execPairLoRead (p : Nat) (off : Nat) (s : State) : Result :=
  s.runAt (hasHostPort p) s.powered (fun t => t.windowRead off)

/-- R9. -/
def execPairHiRead (p : Nat) (off : Nat) (s : State) : Result :=
  s.runAt (hasHostPort p) s.powered (fun t => t.windowRead off)

/-- R9. -/
def execPairLoWrite (p : Nat) (off : Nat) (v : Word) (s : State) : Result := s.portWrite p off v

/-- R9. -/
def execPairHiWrite (p : Nat) (off : Nat) (v : Word) (s : State) : Result := s.portWrite p off v

/-- R40. -/
def execJobEvtClear (p : Nat) (v : Word) (s : State) : Result := s.portWrite p R.jobEvt v

/-- R474. -/
def execRasErrFirstClear (p : Nat) (v : Word) (s : State) : Result := s.portWrite p R.rasErrFirst v

/-- R154. -/
def execWhiskScaleSet (p : Nat) (v : Word) (s : State) : Result := s.portWrite p R.whiskScaleSet v

/-- R216, SCOPE 1. -/
def execCluFlushStream (p : Nat) (c : Nat) (v : Word) (s : State) : Result :=
  s.runAt (hasHostPort p && decide (c < 32)) s.powered (fun t => t.hostWrite p (R.cluFlush c) v)

/-- R216, R217, SCOPE 2. -/
def execCluFlushAll (p : Nat) (c : Nat) (v : Word) (s : State) : Result :=
  s.runAt (hasHostPort p && decide (c < 32)) s.powered (fun t => t.hostWrite p (R.cluFlush c) v)

/-- R226. -/
def execCluEvtRdWrite (p : Nat) (c : Nat) (v : Word) (s : State) : Result :=
  s.runAt (hasHostPort p && decide (c < 32)) s.powered (fun t => t.hostWrite p (R.cluEvtRd c) v)

/-- R493. -/
def execTelSnapRequest (p : Nat) (v : Word) (s : State) : Result := s.portWrite p R.telCtl v

/-- R493. -/
def execTelSample (s : State) : Result :=
  s.onExpiry .telSample (s.run s.powered State.telSampleDue)

/-- R451. -/
def execKeeperTick (s : State) : Result :=
  s.onExpiry .keeperTick (s.run s.powered State.keeperTickDue)

/-- R495: GO with WRITE 0. -/
def execDbgRead (p : Nat) (v : Word) (s : State) : Result := s.portWrite p R.dbgCtl v

/-- R495: GO with WRITE 1. -/
def execDbgWrite (p : Nat) (v : Word) (s : State) : Result := s.portWrite p R.dbgCtl v

/-- R495. -/
def execDbgAccessDone (s : State) : Result := s.run s.clocked State.dbgDone

/-- R496. -/
def execDbgKeeperHalt (p : Nat) (v : Word) (s : State) : Result := s.portWrite p R.dbgKeeper v

/-- R478. -/
def execKeySet (msg : List Word) (s : State) : Result := s.run s.powered (fun t => t.rotMessage msg)

/-- R477. -/
def execMailboxTimeout (s : State) : Result :=
  s.onExpiry .mailboxTimeout (s.run s.powered State.mboxTimeout)

/-- R480. -/
def execRotLifecycleReport (st : BitVec 2) (s : State) : Result := s.run s.powered (fun t => t.lifecycle st.toNat)

/-- R480. -/
def execDebugPortRequest (r : DbgReq) (s : State) : Result := s.run s.powered (fun t => t.debugPort r)

/-- R477. -/
def execMailboxBadMessage (msg : List Word) (s : State) : Result := s.run s.powered (fun t => t.rotMessage msg)

end Sys2Proof.Machine
end

