-- ==== Sys2Proof/Machine/ExecJob.lean ====
section
/-! DEFINITION. Machine/ExecJob.lean: the meanings of the job, Recipe and DMA commands. -/

namespace Sys2Proof.Machine

/-- A JOB_CTL command by its code (R390). -/
def State.jobCommand (s : State) (p : Nat) (v : Word) : Result :=
  s.runAt (hasHostPort p) s.powered (fun t => t.hostWrite p R.jobCtl v)

/-- R390. -/
def execJobStart (p : Nat) (s : State) : Result := s.jobCommand p 1

/-- R399. -/
def execJobResume (p : Nat) (s : State) : Result := s.jobCommand p 2

/-- R400. -/
def execJobReload (p : Nat) (s : State) : Result := s.jobCommand p 3

/-- R401. -/
def execJobAbort (p : Nat) (s : State) : Result := s.jobCommand p 4

/-- R390: a command that its state does not allow, or a reserved code. -/
def execJobCmdIgnored (p : Nat) (v : Word) (s : State) : Result := s.jobCommand p v

/-- R392 to R394, R399. -/
def execModelLoadDone (d : LoadData) (s : State) : Result := s.run s.hiveUp (fun t => t.modelLoad_ d)

/-- R377. -/
def execRecipePoll (s : State) : Result :=
  s.onExpiry .recipePoll (s.run s.clocked State.recipePoll)

/-- R374 to R378. -/
def execRecipeReadDone (slot : Option (List Byte)) (list : Option (List Byte)) (s : State) : Result :=
  s.run s.clocked (fun t => t.recipeRead slot list)

/-- R38. -/
def execDmaReadTimeout (k : DmaKind) (s : State) : Result :=
  s.onExpiry (.dmaReadTimeout k) (s.run s.clocked (fun t => t.dmaTimeout k))

/-- R398. -/
def execSaveDone (s : State) : Result := s.run s.clocked State.saveDone

/-- R386, R387. -/
def execStepDeadlineExpiry (s : State) : Result :=
  s.onExpiry .stepDeadlineExpiry (s.run s.clocked State.deadline)

/-- R388. -/
def execJobIdleTimeout (s : State) : Result :=
  s.onExpiry .jobIdleTimeout (s.run s.clocked State.idleTimeout)

end Sys2Proof.Machine
end

