-- ==== Sys2Proof/Machine/ExecLink.lean ====
section
/-! DEFINITION. Machine/ExecLink.lean: the meanings of the link commands. -/

namespace Sys2Proof.Machine

/-- A flit arrives on link n (R272, R444). -/
def State.onFlit (s : State) (n : Nat) (f : State → State) : Result :=
  s.runAt (s.hasLink n) s.clocked (fun t => t.flitIn f)

/-- A TRAIN flit arrives on link n: its record is checked before it acts (R279). -/
def State.onTrain (s : State) (n : Nat) (t : W8) (f : State → State) : Result := s.onFlit n (fun u => u.trainIn n t f)

/-- Something happens on link n while the link layer is clocked. -/
def State.onLink (s : State) (n : Nat) (f : State → State) : Result := s.runAt (s.hasLink n) s.linkClocked f

/-- A timer of link n expires while the link layer is clocked. -/
def State.onLinkTimer (s : State) (n : Nat) (c : Instr) (f : State → State) : Result :=
  if s.hasLink n then s.onExpiry c (s.onLink n f) else .fault .absentInstance

/-- R278. -/
def execLaneChange (n : Nat) (lanes : BitVec 4) (s : State) : Result :=
  s.runAt (s.hasLink n) s.clocked (fun t => t.laneChange n lanes.toNat)

/-- R278. -/
def execLinkTrainTimeout (n : Nat) (s : State) : Result := s.onLinkTimer n (.linkTrainTimeout n) (fun t => t.trainTimeout n)

/-- R278. -/
def execLinkIdleHoldEnd (n : Nat) (s : State) : Result := s.onLinkTimer n (.linkIdleHoldEnd n) (fun t => t.holdEnd n)

/-- R280. -/
def execLinkHelloTimer (n : Nat) (s : State) : Result := s.onLinkTimer n (.linkHelloTimer n) (fun t => t.helloTimer n)

/-- R280. -/
def execHello (n : Nat) (t : W8) (s : State) : Result := s.onTrain n t (fun u => u.helloRx n t)

/-- R280. -/
def execHelloAck (n : Nat) (t : W8) (s : State) : Result := s.onTrain n t (fun u => u.helloAckRx n t)

/-- R281. -/
def execEchoReq (n : Nat) (t : W8) (cyc : Nat) (s : State) : Result := s.onTrain n t (fun u => u.echoReqRx n t cyc)

/-- R281. -/
def execEchoRsp (n : Nat) (t : W8) (cyc : Nat) (s : State) : Result := s.onTrain n t (fun u => u.echoRspRx n t cyc)

/-- R281; the command's cycle is the receipt's own, and the request takes its time stamp when it leaves. -/
def execLinkEchoTimer (n : Nat) (cyc : Nat) (s : State) : Result :=
  s.onLinkTimer n (.linkEchoTimer n cyc) (fun t => t.echoTimer n)

/-- R272. -/
def execDataFlitRx (n : Nat) (h : W4) (body : List Byte) (s : State) : Result := s.onFlit n (fun u => u.flitRx n h body)

/-- R272. -/
def execCtrlFlitRx (n : Nat) (h : W4) (s : State) : Result := s.onFlit n (fun u => u.flitRx n h [])

/-- R272. -/
def execBadFlitRx (n : Nat) (s : State) : Result := s.onFlit n (fun u => u.badFlit n)

/-- R296 to R298. -/
def execFlitSlotGrant (n : Nat) (cyc : Nat) (s : State) : Result := s.onLink n (fun t => (t.slotGrant n cyc).swarmMoves)

/-- R273. -/
def execLinkRetryTimeout (n : Nat) (s : State) : Result := s.onLinkTimer n (.linkRetryTimeout n) (fun t => t.retryTimeout n)

/-- R275. -/
def execLinkAliveTimeout (n : Nat) (s : State) : Result := s.onLinkTimer n (.linkAliveTimeout n) (fun t => t.aliveTimeout n)

/-- R275. -/
def execLinkKeepalive (n : Nat) (s : State) : Result := s.onLinkTimer n (.linkKeepalive n) (fun t => t.keepalive n)

/-- R270. -/
def execLinkCreditStall (n : Nat) (vc : Nat) (s : State) : Result := s.onLinkTimer n (.linkCreditStall n vc) (fun t => t.creditStall n vc)

/-- R283. -/
def execLinkDeadTimeout (n : Nat) (s : State) : Result := s.onLinkTimer n (.linkDeadTimeout n) (fun t => t.deadTimeout n)

/-- R284. -/
def execResync (n : Nat) (s : State) : Result := s.onLink n (fun t => t.resync n)

end Sys2Proof.Machine
end

