-- ==== Sys2Proof/Machine/ExecPort.lean ====
section
/-! DEFINITION. Machine/ExecPort.lean: the meanings of the die-port, Sieve, capacity-pass, Whisk and Hive commands. -/

namespace Sys2Proof.Machine

/-- R24. -/
def execHsTile (a : Nat) (h : W8) (body : List Byte) (s : State) : Result :=
  s.runAt (s.hasRegion a) s.clocked (fun t => t.hsArrive a h body)

/-- R310. -/
def execExpResult (a : Nat) (h : W8) (body : List Byte) (s : State) : Result :=
  s.runAt (s.hasRegion a) s.clocked (fun t => t.expResult a h body)

/-- R341. -/
def execSwarmIn (a : Nat) (h : W8) (body : List Byte) (s : State) : Result :=
  s.runAt (s.hasRegion a) s.clocked (fun t => (t.swarmUpsets.swarmIn a h body).barGo)

/-- R506. -/
def execCreditRx (a : Nat) (h : W8) (_body : List Byte) (s : State) : Result :=
  s.runAt (s.hasRegion a) s.clocked (fun t => t.creditIn a h)

/-- The class of staging that takes a message which only the engine sends, or a reserved one: SWARM_OUT and SWARM_SIGNAL
come in class SWM; the classes TILE and COMB and the reserved codes name no staging of the engine, so no credit goes back
(R23, R25; assumption row 53). -/
def wrongClass (msg : Nat) : Option Nat := if msg = 7 ∨ msg = 8 then some 2 else none

/-- A message by its MSG code (R23, R25). -/
def State.dieAny (s : State) (a : Nat) (h : W8) (body : List Byte) : State :=
  if W8.msg h = 1 then s.hsArrive a h body
  else if W8.msg h = 4 then s.expResult a h body
  else if W8.msg h = 6 then (s.swarmUpsets.swarmIn a h body).barGo
  else if W8.msg h = 9 then s.creditIn a h
  else (s.startWake 2).dieBad a (wrongClass (W8.msg h)) (16 * W8.dlen h)

/-- R23, R25. -/
def execDieportReservedMsg (a : Nat) (h : W8) (body : List Byte) (s : State) : Result :=
  s.runAt (s.hasRegion a) s.clocked (fun t => t.dieAny a h body)

/-- A CREDIT leaves before every ready message of its port but one that was passed over 16 times, and after the CREDITs that became
ready before it (R213). -/
def State.creditFirst (s : State) (a cls : Nat) : State :=
  if s.portFree a pcCredit && (s.port a).creditNext == some cls then (s.creditOut a cls).notePassedAll a else s

/-- R27. -/
def execCreditSend (a : Nat) (cls : Nat) (s : State) : Result :=
  s.runAt (s.hasRegion a) s.clocked (fun t => t.creditFirst a cls)

/-- R505. -/
def execSieveTileLoadStart (a : Nat) (s : State) : Result := s.runAt (s.hasRegion a) s.atWork (fun t => t.tileLoad a)

/-- R95. -/
def execSievePageFetchDone (a : Nat) (stall : Nat) (s : State) : Result :=
  s.runAt (s.hasRegion a) s.atWork (fun t => t.pageFetched a stall)

/-- R86. -/
def execSieveRampStart (a : Nat) (s : State) : Result := s.runAt (s.hasRegion a) s.atWork (fun t => t.rampStart a)

/-- R86. -/
def execSieveRampStep (a : Nat) (s : State) : Result := s.runAt (s.hasRegion a) s.atWork (fun t => t.rampStep a)

/-- R124. -/
def execScoringTokenDone (a : Nat) (floorCycles : Nat) (s : State) : Result :=
  s.runAt (s.hasRegion a) s.atWork (fun t => t.scoreToken a floorCycles)

/-- R117. -/
def execCapacityPassStart (layer : Nat) (half : Nat) (s : State) : Result :=
  s.run s.atWork (fun t => t.capStartClu layer half)

/-- The end of the pass, once it can end: the Ladles' records are made, so an empty half's message is ready (R305, R321) and
the window may have a head (R329); with nothing to send, the manifests are ready (R204), and the receive side may be complete
(R205, R221). -/
def State.capFinish (s : State) (l h : Nat) : State :=
  if s.capCanEnd l h then
    let s1 := (List.range s.nRegions).foldl (fun t a => (t.combDue a l h (t.combFuel a l h)).ladleState a) (s.capEnd l h)
    (((s1.readyMans l h).rxCheck l h).closeTails l h).cluPhases
  else s

/-- R119. -/
def execCapacityPassEnd (layer : Nat) (half : Nat) (s : State) : Result :=
  s.run s.atWork (fun t => t.capRead layer half (fun u => u.capFinish layer half))

/-- R145. -/
def execWhiskPayloadWritten (a : Nat) (s : State) : Result := s.runAt (s.hasRegion a) s.atWork (fun t => t.whiskToken a)

/-- R150: one converted row of the result at the head of staging. -/
def execWhiskResultConverted (a : Nat) (s : State) : Result :=
  s.runAt (s.hasRegion a) s.atWork (fun t => t.pumpRes a (t.resFuel a) 1)

/-- R183; pool 5 stands for the header slots. -/
def execHiveAllocGrant (q : Nat) (waited : Nat) (s : State) : Result :=
  s.runAt (decide (q < 6)) s.atWork (fun t => t.allocGrant q waited)

/-- R189. -/
def execHiveRefresh (ch : Nat) (s : State) : Result := s.runAt (decide (ch < 4096)) s.clocked (fun t => t.refresh ch)

end Sys2Proof.Machine
end

