-- ==== Sys2Proof/Machine/ExecPower.lean ====
section
/-! DEFINITION. Machine/ExecPower.lean: the meanings of the power commands and of the scrub. -/

namespace Sys2Proof.Machine

/-- R440. -/
def execE1Entry (s : State) : Result := s.onExpiry .e1Entry (s.run s.clocked State.e1Entry)

/-- R441. -/
def execE2Entry (s : State) : Result := s.onExpiry .e2Entry (s.run s.clocked State.e2Entry)

/-- R442. -/
def execE3Entry (s : State) : Result := s.onExpiry .e3Entry (s.run s.clocked State.e3Entry)

/-- R447. -/
def execWakeTimer (s : State) : Result :=
  s.onExpiry .wakeTimer (s.run s.clocked State.wakeTimer)

/-- R445. -/
def execWakeComplete (s : State) : Result := s.run s.clocked (fun t => t.wakeComplete.debugDrain.acceptHeld)

/-- R449. -/
def execEarlyWake (s : State) : Result :=
  s.onExpiry .earlyWake (s.run s.clocked State.earlyWake)

/-- R463, R473. -/
def execKeeperScrub (k : Nat) (r : ScrubResult) (s : State) : Result :=
  s.runAt (s.hasKeeper k) (s.clocked && s.scrubDue) (fun t => t.scrub r)

end Sys2Proof.Machine
end

