-- ==== Sys2Proof/Machine/ExecRoster.lean ====
section
/-! DEFINITION. Machine/ExecRoster.lean: the meanings of the roster commands. -/

namespace Sys2Proof.Machine

/-- R240. -/
def execRosterRevExpiry (s : State) : Result :=
  s.onExpiry .rosterRevExpiry (s.run s.powered State.revExpiry)

/-- R240 step 1. -/
def execRevStart (n : Nat) (s : State) : Result :=
  s.runAt (s.hasLink n) s.atWork (fun t => t.rosterRx n opRevStart (fun h _ u => u.takeRevStart h))

/-- R241: the Keepers run in E0 and E1 (R438). -/
def execRosterComputeDone (s : State) : Result := s.run s.linkClocked State.computeDone

/-- R240 step 5. -/
def execRevVote (n : Nat) (s : State) : Result :=
  s.runAt (s.hasLink n) s.atWork (fun t => t.rosterRx n opRevVote (fun h _ u => u.takeVoteMsg h))

/-- R244. -/
def execRevCommit (n : Nat) (s : State) : Result :=
  s.runAt (s.hasLink n) s.atWork (fun t => t.rosterRx n opRevCommit (fun h _ u =>
    u.takeCommit (W8.repoch h) (W8.rarg0 h) h.w6.toNat))

/-- R240. -/
def execRevAbort (n : Nat) (s : State) : Result :=
  s.runAt (s.hasLink n) s.atWork (fun t => t.rosterRx n opRevAbort (fun h _ u => u.takeAbort h))

/-- R251, R252. -/
def execLoss (n : Nat) (s : State) : Result :=
  s.runAt (s.hasLink n) s.atWork (fun t => t.rosterRx n opLoss (fun h _ u => u.takeLoss h))

/-- R250. -/
def execLeave (n : Nat) (s : State) : Result :=
  s.runAt (s.hasLink n) s.atWork (fun t => t.rosterRx n opLeave (fun h _ u => u.takeLeave h))

/-- R249. -/
def execJoinReq (n : Nat) (s : State) : Result :=
  s.runAt (s.hasLink n) s.atWork (fun t => t.rosterRx n opJoinReq (fun h _ u => u.takeJoinReq h))

/-- R429. -/
def execJoinAck (n : Nat) (s : State) : Result :=
  s.runAt (s.hasLink n) s.atWork (fun t => t.rosterRx n opJoinAck (fun h _ u => u.takeJoinAck h))

/-- R249. -/
def execRosterXfer (n : Nat) (s : State) : Result :=
  s.runAt (s.hasLink n) s.atWork (fun t => t.rosterRx n opXfer (fun h body u => u.takeXfer h body))

/-- R250. -/
def execLossDetect (pkg : Nat) (s : State) : Result :=
  s.onExpiry (.lossDetect pkg) (s.run s.clocked (fun t => t.lossDetect pkg))

/-- R433. -/
def execIsolation (s : State) : Result :=
  s.onExpiry .isolation (s.run s.clocked State.isolation)

/-- R427. -/
def execJoinRetry (s : State) : Result :=
  s.onExpiry .joinRetry (s.run s.powered State.joinRetry)

end Sys2Proof.Machine
end

