-- ==== Sys2Proof/Machine/ExecStep.lean ====
section
/-! DEFINITION. Machine/ExecStep.lean: the meanings of the dispatch, tile, combine and Swarm commands and of the barrier. -/

namespace Sys2Proof.Machine

/-- R202. -/
def execCluPacketHandover (c : Nat) (s : State) : Result := s.runAt (s.hasCluster c) s.atWork (fun t => t.handover c)

/-- R204. -/
def execCluManifestSend (layer : Nat) (half : Nat) (s : State) : Result :=
  s.run s.atWork (fun t => t.manifestSend layer half)

/-- R199, R211, R212. -/
def execDispatchPacketRx (n : Nat) (s : State) : Result :=
  s.runAt (s.hasLink n) s.atWork (fun t => t.packetRead n 2 (fun u => (u.dispatchRx n).closeDone))

/-- R205. -/
def execManifestRx (n : Nat) (s : State) : Result :=
  s.runAt (s.hasLink n) s.atWork (fun t => t.packetRead n 2 (fun u => (u.manifestRx n).closeDone))

/-- R209. -/
def execResultPacketRx (n : Nat) (s : State) : Result :=
  s.runAt (s.hasLink n) s.atWork (fun t => t.packetRead n 3 (fun u => u.resultRx n))

/-- R214, R215. -/
def execCutThroughRelease (n : Nat) (vc : Nat) (s : State) : Result :=
  s.runAt (s.hasLink n) s.atWork (fun t => (t.cutRelease n vc).closeDone)

/-- R220. -/
def execTileAppend (c : Nat) (s : State) : Result :=
  s.runAt (s.hasCluster c) s.atWork (fun t => t.appendRead c (fun u => u.tileAppend c))

/-- R222. -/
def execExpTileSend (a : Nat) (s : State) : Result := s.runAt (s.hasRegion a) s.atWork (fun t => t.expTileOut a)

/-- R224. -/
def execTileManifestSend (a : Nat) (s : State) : Result := s.runAt (s.hasRegion a) s.atWork (fun t => t.dieManOut a)

/-- R317. -/
def execLadleCombineToken (a : Nat) (waited : Nat) (s : State) : Result :=
  s.runAt (s.hasRegion a) s.atWork (fun t => t.combineRead a (fun u => u.combineToken a waited))

/-- R314. -/
def execLadleAddResult (a : Nat) (s : State) : Result :=
  s.runAt (s.hasRegion a) s.atWork (fun t => t.combineRead a (fun u => u.addResult a))

/-- R321. -/
def execCombResultSend (a : Nat) (s : State) : Result := s.runAt (s.hasRegion a) s.atWork (fun t => t.combOut a)

/-- R352; the Keepers' own chunks open with the others. -/
def execSwarmChunkOpen (s : State) : Result := s.run s.atWork (fun t => t.swarmUpsets.revContribute.swarmOpen.barGo)

/-- R344. -/
def execSwarmChunkRx (n : Nat) (s : State) : Result :=
  s.runAt (s.hasLink n) s.atWork (fun t => (t.swarmUpsets.chunkRx n).barGo)

/-- R354. -/
def execSwarmNoticeRx (n : Nat) (s : State) : Result := s.runAt (s.hasLink n) s.atWork (fun t => (t.swarmUpsets.noticeRx n).barGo)

/-- R342. -/
def execSwarmOutSend (a : Nat) (s : State) : Result := s.runAt (s.hasRegion a) s.atWork (fun t => (t.swarmUpsets.swarmOutOf a true).barGo)

/-- R342. -/
def execSwarmSignalSend (a : Nat) (s : State) : Result := s.runAt (s.hasRegion a) s.atWork (fun t => (t.swarmUpsets.swarmOutOf a false).barGo)

/-- R358. -/
def execArriveRx (n : Nat) (cyc : Nat) (s : State) : Result := s.runAt (s.hasLink n) s.atWork (fun t => t.arriveRx n cyc)

/-- R359. -/
def execReleaseRx (n : Nat) (cyc : Nat) (s : State) : Result := s.runAt (s.hasLink n) s.atWork (fun t => t.releaseRx n cyc)

/-- R362. -/
def execBarrierFire (cyc : Nat) (s : State) : Result := s.run s.atWork (fun t => t.barrierFire cyc)

/-- The timer's expiry wakes the engine (R443 source 4). -/
def State.barTimeout (s : State) : State :=
  if s.bar.open_ && s.due tmBar then (s.startWake 4).barExpire else s

/-- R366. -/
def execBarrierTimeout (s : State) : Result :=
  s.onExpiry .barrierTimeout (s.run s.clocked State.barTimeout)

end Sys2Proof.Machine
end

