-- ==== Sys2Proof/Machine/Dispatch.lean ====
section
/-! DEFINITION. Machine/Dispatch.lean: one arm per command, each a direct call of its meaning. -/

namespace Sys2Proof.Machine

def exec (i : Instr) (s : State) : Host.Outcome State Fault Refusal :=
  match i with
  | .erpRstNAssert => Sys2Proof.Machine.execErpRstNAssert s
  | .erpRstNRelease => Sys2Proof.Machine.execErpRstNRelease s
  | .erpPwrGoodFall => Sys2Proof.Machine.execErpPwrGoodFall s
  | .s1Entry flash => Sys2Proof.Machine.execS1Entry flash s
  | .bootKeyRsp msg => Sys2Proof.Machine.execBootKeyRsp msg s
  | .imageSlotReadDone data => Sys2Proof.Machine.execImageSlotReadDone data s
  | .measureAck msg => Sys2Proof.Machine.execMeasureAck msg s
  | .keeperReadyTimeout => Sys2Proof.Machine.execKeeperReadyTimeout s
  | .preparationDone selftestOk => Sys2Proof.Machine.execPreparationDone selftestOk s
  | .hiveZeroisationDone => Sys2Proof.Machine.execHiveZeroisationDone s
  | .bootFleetWrite p v => Sys2Proof.Machine.execBootFleetWrite p v s
  | .syncInEdge highNs => Sys2Proof.Machine.execSyncInEdge highNs s
  | .svcDrain => Sys2Proof.Machine.execSvcDrain s
  | .drainLedBlink => Sys2Proof.Machine.execDrainLedBlink s
  | .thmAlert => Sys2Proof.Machine.execThmAlert s
  | .fecCorrPulse n => Sys2Proof.Machine.execFecCorrPulse n s
  | .regWrite p off v => Sys2Proof.Machine.execRegWrite p off v s
  | .regBadAccess p dir off size => Sys2Proof.Machine.execRegBadAccess p dir off size s
  | .pairLoRead p off => Sys2Proof.Machine.execPairLoRead p off s
  | .pairHiRead p off => Sys2Proof.Machine.execPairHiRead p off s
  | .pairLoWrite p off v => Sys2Proof.Machine.execPairLoWrite p off v s
  | .pairHiWrite p off v => Sys2Proof.Machine.execPairHiWrite p off v s
  | .jobEvtClear p v => Sys2Proof.Machine.execJobEvtClear p v s
  | .rasErrFirstClear p v => Sys2Proof.Machine.execRasErrFirstClear p v s
  | .whiskScaleSet p v => Sys2Proof.Machine.execWhiskScaleSet p v s
  | .cluFlushStream p c v => Sys2Proof.Machine.execCluFlushStream p c v s
  | .cluFlushAll p c v => Sys2Proof.Machine.execCluFlushAll p c v s
  | .cluEvtRdWrite p c v => Sys2Proof.Machine.execCluEvtRdWrite p c v s
  | .telSnapRequest p v => Sys2Proof.Machine.execTelSnapRequest p v s
  | .telSample => Sys2Proof.Machine.execTelSample s
  | .keeperTick => Sys2Proof.Machine.execKeeperTick s
  | .dbgRead p v => Sys2Proof.Machine.execDbgRead p v s
  | .dbgWrite p v => Sys2Proof.Machine.execDbgWrite p v s
  | .dbgAccessDone => Sys2Proof.Machine.execDbgAccessDone s
  | .dbgKeeperHalt p v => Sys2Proof.Machine.execDbgKeeperHalt p v s
  | .jobStart p => Sys2Proof.Machine.execJobStart p s
  | .jobResume p => Sys2Proof.Machine.execJobResume p s
  | .jobReload p => Sys2Proof.Machine.execJobReload p s
  | .jobAbort p => Sys2Proof.Machine.execJobAbort p s
  | .jobCmdIgnored p v => Sys2Proof.Machine.execJobCmdIgnored p v s
  | .modelLoadDone d => Sys2Proof.Machine.execModelLoadDone d s
  | .recipePoll => Sys2Proof.Machine.execRecipePoll s
  | .recipeReadDone slot list => Sys2Proof.Machine.execRecipeReadDone slot list s
  | .dmaReadTimeout k => Sys2Proof.Machine.execDmaReadTimeout k s
  | .saveDone => Sys2Proof.Machine.execSaveDone s
  | .stepDeadlineExpiry => Sys2Proof.Machine.execStepDeadlineExpiry s
  | .jobIdleTimeout => Sys2Proof.Machine.execJobIdleTimeout s
  | .hsTile a h body => Sys2Proof.Machine.execHsTile a h body s
  | .expResult a h body => Sys2Proof.Machine.execExpResult a h body s
  | .swarmIn a h body => Sys2Proof.Machine.execSwarmIn a h body s
  | .creditRx a h body => Sys2Proof.Machine.execCreditRx a h body s
  | .creditSend a cls => Sys2Proof.Machine.execCreditSend a cls s
  | .sieveTileLoadStart a => Sys2Proof.Machine.execSieveTileLoadStart a s
  | .sievePageFetchDone a stall => Sys2Proof.Machine.execSievePageFetchDone a stall s
  | .sieveRampStart a => Sys2Proof.Machine.execSieveRampStart a s
  | .sieveRampStep a => Sys2Proof.Machine.execSieveRampStep a s
  | .scoringTokenDone a floorCycles => Sys2Proof.Machine.execScoringTokenDone a floorCycles s
  | .capacityPassStart layer half => Sys2Proof.Machine.execCapacityPassStart layer half s
  | .capacityPassEnd layer half => Sys2Proof.Machine.execCapacityPassEnd layer half s
  | .whiskPayloadWritten a => Sys2Proof.Machine.execWhiskPayloadWritten a s
  | .whiskResultConverted a => Sys2Proof.Machine.execWhiskResultConverted a s
  | .hiveAllocGrant q waited => Sys2Proof.Machine.execHiveAllocGrant q waited s
  | .hiveRefresh ch => Sys2Proof.Machine.execHiveRefresh ch s
  | .cluPacketHandover c => Sys2Proof.Machine.execCluPacketHandover c s
  | .cluManifestSend layer half => Sys2Proof.Machine.execCluManifestSend layer half s
  | .dispatchPacketRx n => Sys2Proof.Machine.execDispatchPacketRx n s
  | .manifestRx n => Sys2Proof.Machine.execManifestRx n s
  | .resultPacketRx n => Sys2Proof.Machine.execResultPacketRx n s
  | .cutThroughRelease n vc => Sys2Proof.Machine.execCutThroughRelease n vc s
  | .tileAppend c => Sys2Proof.Machine.execTileAppend c s
  | .expTileSend a => Sys2Proof.Machine.execExpTileSend a s
  | .tileManifestSend a => Sys2Proof.Machine.execTileManifestSend a s
  | .ladleCombineToken a waited => Sys2Proof.Machine.execLadleCombineToken a waited s
  | .ladleAddResult a => Sys2Proof.Machine.execLadleAddResult a s
  | .combResultSend a => Sys2Proof.Machine.execCombResultSend a s
  | .swarmChunkOpen => Sys2Proof.Machine.execSwarmChunkOpen s
  | .swarmChunkRx n => Sys2Proof.Machine.execSwarmChunkRx n s
  | .swarmNoticeRx n => Sys2Proof.Machine.execSwarmNoticeRx n s
  | .swarmOutSend a => Sys2Proof.Machine.execSwarmOutSend a s
  | .swarmSignalSend a => Sys2Proof.Machine.execSwarmSignalSend a s
  | .arriveRx n cyc => Sys2Proof.Machine.execArriveRx n cyc s
  | .releaseRx n cyc => Sys2Proof.Machine.execReleaseRx n cyc s
  | .barrierFire cyc => Sys2Proof.Machine.execBarrierFire cyc s
  | .barrierTimeout => Sys2Proof.Machine.execBarrierTimeout s
  | .rosterRevExpiry => Sys2Proof.Machine.execRosterRevExpiry s
  | .revStart n => Sys2Proof.Machine.execRevStart n s
  | .rosterComputeDone => Sys2Proof.Machine.execRosterComputeDone s
  | .revVote n => Sys2Proof.Machine.execRevVote n s
  | .revCommit n => Sys2Proof.Machine.execRevCommit n s
  | .revAbort n => Sys2Proof.Machine.execRevAbort n s
  | .loss n => Sys2Proof.Machine.execLoss n s
  | .leave n => Sys2Proof.Machine.execLeave n s
  | .joinReq n => Sys2Proof.Machine.execJoinReq n s
  | .joinAck n => Sys2Proof.Machine.execJoinAck n s
  | .rosterXfer n => Sys2Proof.Machine.execRosterXfer n s
  | .lossDetect pkg => Sys2Proof.Machine.execLossDetect pkg s
  | .isolation => Sys2Proof.Machine.execIsolation s
  | .joinRetry => Sys2Proof.Machine.execJoinRetry s
  | .laneChange n lanes => Sys2Proof.Machine.execLaneChange n lanes s
  | .linkTrainTimeout n => Sys2Proof.Machine.execLinkTrainTimeout n s
  | .linkIdleHoldEnd n => Sys2Proof.Machine.execLinkIdleHoldEnd n s
  | .linkHelloTimer n => Sys2Proof.Machine.execLinkHelloTimer n s
  | .hello n t => Sys2Proof.Machine.execHello n t s
  | .helloAck n t => Sys2Proof.Machine.execHelloAck n t s
  | .echoReq n t cyc => Sys2Proof.Machine.execEchoReq n t cyc s
  | .echoRsp n t cyc => Sys2Proof.Machine.execEchoRsp n t cyc s
  | .linkEchoTimer n cyc => Sys2Proof.Machine.execLinkEchoTimer n cyc s
  | .dataFlitRx n h body => Sys2Proof.Machine.execDataFlitRx n h body s
  | .ctrlFlitRx n h => Sys2Proof.Machine.execCtrlFlitRx n h s
  | .badFlitRx n => Sys2Proof.Machine.execBadFlitRx n s
  | .flitSlotGrant n cyc => Sys2Proof.Machine.execFlitSlotGrant n cyc s
  | .linkRetryTimeout n => Sys2Proof.Machine.execLinkRetryTimeout n s
  | .linkAliveTimeout n => Sys2Proof.Machine.execLinkAliveTimeout n s
  | .linkKeepalive n => Sys2Proof.Machine.execLinkKeepalive n s
  | .linkCreditStall n vc => Sys2Proof.Machine.execLinkCreditStall n vc s
  | .linkDeadTimeout n => Sys2Proof.Machine.execLinkDeadTimeout n s
  | .resync n => Sys2Proof.Machine.execResync n s
  | .keySet msg => Sys2Proof.Machine.execKeySet msg s
  | .mailboxTimeout => Sys2Proof.Machine.execMailboxTimeout s
  | .e1Entry => Sys2Proof.Machine.execE1Entry s
  | .e2Entry => Sys2Proof.Machine.execE2Entry s
  | .e3Entry => Sys2Proof.Machine.execE3Entry s
  | .wakeTimer => Sys2Proof.Machine.execWakeTimer s
  | .wakeComplete => Sys2Proof.Machine.execWakeComplete s
  | .earlyWake => Sys2Proof.Machine.execEarlyWake s
  | .keeperScrub k r => Sys2Proof.Machine.execKeeperScrub k r s
  | .dieportReservedMsg a h body => Sys2Proof.Machine.execDieportReservedMsg a h body s
  | .rotLifecycleReport st => Sys2Proof.Machine.execRotLifecycleReport st s
  | .debugPortRequest r => Sys2Proof.Machine.execDebugPortRequest r s
  | .mailboxBadMessage msg => Sys2Proof.Machine.execMailboxBadMessage msg s

end Sys2Proof.Machine
end

