-- ==== Sys2Proof/Machine/Tick.lean ====
section
/-! DEFINITION. Machine/Tick.lean: the end of an AON tick (R455, assumption rows 2 and 104). -/

namespace Sys2Proof.Machine

/-- The timers that were found expired while events of their tick still waited compare now. -/
def State.lateExpiries (s : State) : State :=
  s.expired.foldl (fun t c => match exec c t with
    | .next u => u
    | _ => t) { s with expired := [] }

/-- An AON tick ends: its expiries act, and time passes. -/
def State.endTick (s : State) : State := s.lateExpiries.aonTick

end Sys2Proof.Machine
end

