-- ==== Sys2Proof/Safety.lean ====
section
/-! DEFINITION. Safety.lean: the invariants that claims are stated in: the canonical forms of the machine's sparse maps and the
fixed numbers of its units. -/

namespace Sys2Proof.Machine

/-- The Hive's memory is in canonical form: addresses strictly rising, no entry equal to what the zeroised layout reads. -/
def Memory.wf (s : State) : Bool := SMap.wf (zeroByte s.hive.layout) s.hive.mem

/-- The register file is in canonical form. -/
def State.regsWf (s : State) : Bool := SMap.wf (regReset s.fuses) s.regs

/-- The route table is in canonical form. -/
def State.routesWf (s : State) : Bool := SMap.wf routeReset s.routes

/-- The Keeper memories are in canonical form. -/
def State.keepWf (s : State) : Bool := s.keep.mem.all (fun m => SMap.wf zeroByteAt m)

/-- The read of one byte of the Hive. -/
def State.hiveByte (s : State) (a : Nat) : Byte := SMap.get (zeroByte s.hive.layout) s.hive.mem a

/-- The read of one byte of a Keeper's memory. -/
def State.keeperByte (s : State) (k a : Nat) : Byte := SMap.get zeroByteAt (s.keeperMem k) a

/-- Every register but those at the given offsets reads in `t` as it reads in `s`. -/
def State.keepsRegsBut (s t : State) (offs : List Nat) : Prop :=
  ∀ o, regHome o ∉ offs.map regHome → t.word o = s.word o

/-- A command of link n: `t` differs from `s` in that link and in its registers alone. -/
def State.onlyLink (s t : State) (n : Nat) : Prop :=
  t = { s with regs := t.regs, links := t.links } ∧ (∀ m, m ≠ n → t.link m = s.link m) ∧
    ∀ o, (regHome o < 0x60000 + 0x400 * n ∨ 0x60000 + 0x400 * (n + 1) ≤ regHome o) → t.word o = s.word o

/-- A command of the dispatch path leaves the package's control: time and pins, fuses, routes, start, Keepers, mailbox, job and
queue. -/
def State.keepsControl (s t : State) : Prop :=
  t.chip = s.chip ∧ t.fuses = s.fuses ∧ t.routes = s.routes ∧ t.boot = s.boot ∧ t.keep = s.keep ∧ t.mbox = s.mbox ∧
    t.job = s.job ∧ t.pending = s.pending

/-- The tiles in the tile table keep their rows: none is added, taken or moved. A tile may close. -/
def State.keepsTileRows (s t : State) : Prop :=
  t.tiles.live.map (fun x => (x.idx, x.rows)) = s.tiles.live.map (fun x => (x.idx, x.rows))

/-- The die ports keep everything but the tiles and tile manifests that wait to leave. -/
def State.keepsPortsButTiles (s t : State) : Prop :=
  t.ports.map (fun p => { p with tiles := [], mans := [] }) = s.ports.map (fun p => { p with tiles := [], mans := [] })

/-- The first flit of a packet for this package, with these packet bytes, is kept: the package is a member (R425), the packet is no
management record, and its VC and TYPE agree (R266): a roster message of a known operation on VC0, a chunk on VC1, and no roster
message on VC2 and VC3. A control packet of TYPE 4 on VC0 is one flit, so it is never the first of several. -/
def State.firstFlitOk (s : State) (v nhdr : Nat) (mg : Bool) (b : List Byte) : Bool :=
  let ty := fld (wordAt b 0) 31 28
  let op := fld (wordAt b 1) 31 28
  s.member && !mg && decide (1 ≤ nhdr) &&
    ((decide (2 ≤ v) && ty != 5) || (v == 1 && ty == 4) || (v == 0 && ty == 5 && nhdr == 1 && decide (1 ≤ op ∧ op ≤ 9)))

/-- A register that a host write changes by its access codes alone (R7): no half of a pair, no command and no window on other
state. -/
def plainReg (off : Nat) : Bool :=
  off % 4 == 0 && !isPairLo off && !isPairHi off && off != R.jobCtl && off != R.whiskScaleSet && off != R.telCtl &&
    off != R.dbgCtl && off != R.dbgKeeper && off != R.bootCtl && regHome off != R.linkRtData 0 &&
    !(decide (0x40000 ≤ off ∧ off < 0x50000) && (off % 0x800 == 0xC || off % 0x800 == 0x64))

/-- The units that the part has (R2), at the larger grade's numbers, each with its fixed queues and counts: three classes of
credits at a die port (R26), four VCs at a link (R268), nine Keepers. -/
def State.unitsWf (s : State) : Bool :=
  s.timers.length == 32 && s.sieves.length == 4 && s.clus.length == 32 && s.keep.mem.length == 9 &&
    s.ports.length == 4 && s.ports.all (fun p => p.owed.length == 3 && p.held.length == 3) &&
    s.links.length == 64 && s.links.all (fun l => l.tx.credits.length == 4 && l.tx.lastCr.length == 4 &&
      l.tx.q.length == 4 && l.tx.stallAt.length == 4 && l.rx.q.length == 4)

/-- The part has every instance that the command names (R1, R2): its link, region and die port, host port, dispatch cluster,
Hive pool or channel, or Keeper. -/
def State.hasInstance (s : State) : Instr → Bool
  | .fecCorrPulse n | .dispatchPacketRx n | .manifestRx n | .resultPacketRx n | .cutThroughRelease n _
  | .swarmChunkRx n | .swarmNoticeRx n | .arriveRx n _ | .releaseRx n _ | .revStart n | .revVote n | .revCommit n
  | .revAbort n | .loss n | .leave n | .joinReq n | .joinAck n | .rosterXfer n | .laneChange n _
  | .linkTrainTimeout n | .linkIdleHoldEnd n | .linkHelloTimer n | .hello n _ | .helloAck n _ | .echoReq n _ _
  | .echoRsp n _ _ | .linkEchoTimer n _ | .dataFlitRx n _ _ | .ctrlFlitRx n _ | .badFlitRx n | .flitSlotGrant n _
  | .linkRetryTimeout n | .linkAliveTimeout n | .linkKeepalive n | .linkCreditStall n _ | .linkDeadTimeout n
  | .resync n => s.hasLink n
  | .hsTile a _ _ | .expResult a _ _ | .swarmIn a _ _ | .creditRx a _ _ | .creditSend a _ | .sieveTileLoadStart a
  | .sievePageFetchDone a _ | .sieveRampStart a | .sieveRampStep a | .scoringTokenDone a _ | .whiskPayloadWritten a
  | .whiskResultConverted a | .expTileSend a | .tileManifestSend a | .ladleCombineToken a _ | .ladleAddResult a
  | .combResultSend a | .swarmOutSend a | .swarmSignalSend a | .dieportReservedMsg a _ _ => s.hasRegion a
  | .bootFleetWrite p _ | .regWrite p _ _ | .regBadAccess p _ _ _ | .pairLoRead p _ | .pairHiRead p _
  | .pairLoWrite p _ _ | .pairHiWrite p _ _ | .jobEvtClear p _ | .rasErrFirstClear p _ | .whiskScaleSet p _
  | .telSnapRequest p _ | .dbgRead p _ | .dbgWrite p _ | .dbgKeeperHalt p _ | .jobStart p | .jobResume p
  | .jobReload p | .jobAbort p | .jobCmdIgnored p _ => hasHostPort p
  | .cluFlushStream p c _ | .cluFlushAll p c _ | .cluEvtRdWrite p c _ => hasHostPort p && decide (c < 32)
  | .cluPacketHandover c | .tileAppend c => s.hasCluster c
  | .hiveAllocGrant q _ => decide (q < 6)
  | .hiveRefresh ch => decide (ch < 4096)
  | .keeperScrub k _ => s.hasKeeper k
  | .erpRstNAssert | .erpRstNRelease | .erpPwrGoodFall | .s1Entry _ | .bootKeyRsp _ | .imageSlotReadDone _
  | .measureAck _ | .keeperReadyTimeout | .preparationDone _ | .hiveZeroisationDone | .syncInEdge _ | .svcDrain
  | .drainLedBlink | .thmAlert | .telSample | .keeperTick | .dbgAccessDone | .modelLoadDone _ | .recipePoll
  | .recipeReadDone _ _ | .dmaReadTimeout _ | .saveDone | .stepDeadlineExpiry | .jobIdleTimeout
  | .capacityPassStart _ _ | .capacityPassEnd _ _ | .cluManifestSend _ _ | .swarmChunkOpen | .barrierFire _
  | .barrierTimeout | .rosterRevExpiry | .rosterComputeDone | .lossDetect _ | .isolation | .joinRetry | .keySet _
  | .mailboxTimeout | .e1Entry | .e2Entry | .e3Entry | .wakeTimer | .wakeComplete | .earlyWake
  | .rotLifecycleReport _ | .debugPortRequest _ | .mailboxBadMessage _ => true

/-- The sparse maps are canonical and the units complete. -/
def State.canonical (s : State) : Bool :=
  Memory.wf s && s.regsWf && s.routesWf && s.keepWf && s.unitsWf

end Sys2Proof.Machine
end

