-- ==== Sys2Proof/Certificates/Slice0/Obligations.lean ====
section
/-! DEFINITION. Certificates/Slice0/Obligations.lean: the statements for the provers. Each docstring names the rules of spec/ that
the statement formalises. A premise `s.errs = []` says that no control error of an earlier command is left; it is the
invariant of `Obligations.EveryStepSettlesItsErrors`. -/

open Sys2Proof Sys2Proof.Machine

/-! ### The step, time and reset -/

/-- A step takes the command at the front of the queue and runs it with the queue's rest. -/
def Obligations.StepRunsTheFrontCommand : Prop :=
  ∀ (c : Instr) (rest : List Instr) (s : State), step { s with pending := c :: rest } = exec c { s with pending := rest }

/-- On an empty queue one AON tick passes (the model's choice, log entries 2 and 104): TMR_NOW advances by the 10 ns of R450
outside reset, and in reset nothing changes. R455: a timer compares after the events of its tick, so its expiry that comes
while other events of the tick wait is put off to the end of the tick, where it acts as it does then. -/
def Obligations.EmptyQueueIsOneAonTick : Prop :=
  (∀ (s : State) (k : DmaKind) (n v : Nat), s.cycleOver = false → s.hasLink n = true →
    ∀ i ∈ [Instr.keeperReadyTimeout, .dmaReadTimeout k, .stepDeadlineExpiry, .jobIdleTimeout, .barrierTimeout,
      .lossDetect v, .isolation, .joinRetry, .mailboxTimeout, .wakeTimer, .earlyWake, .linkTrainTimeout n, .linkRetryTimeout n,
      .linkAliveTimeout n, .linkCreditStall n v, .linkDeadTimeout n, .drainLedBlink, .telSample, .keeperTick, .recipePoll, .e1Entry, .e2Entry, .e3Entry,
      .rosterRevExpiry, .linkIdleHoldEnd n, .linkHelloTimer n, .linkEchoTimer n v, .linkKeepalive n],
    exec i s = .next { s with expired := s.expired ++ [i] }) ∧
  (∀ (s u : State) (c : Instr), s.pending = [] → s.expired = [c] → exec c { s with expired := [] } = .next u →
    step s = .next u.aonTick) ∧
  ∀ s : State, s.pending = [] → s.expired = [] →
    (s.chip.inReset = true → step s = .next s) ∧
    (s.chip.inReset = false → ∃ t, step s = .next t ∧ t.chip.now = s.chip.now + 10 ∧ t.pending = [] ∧ t.hive = s.hive ∧
      t.job = s.job ∧ t.step = s.step ∧ t.outs = s.outs ∧ t.errs = s.errs ∧ t.fuses = s.fuses)

/-- The engine right after reset. By the spec: R51, R409 (stage S0), R52 and R193 (the Hive's zeroisation is still to run),
R389 (no job), R278 (every link OFF), R450 (TMR_NOW at 0), R8 (every register at its reset word). The model's own choices are
that EID_PART reads 0xE3A1 here (the fuses of an Erpinel-32, log entry 5), that the queue of commands is empty (log entry 2),
and what `Link.reset` holds beside the state OFF (log entry 14). -/
def Obligations.ResetLeavesTheEngineInS0 : Prop :=
  State.reset.chip.now = 0 ∧ State.reset.pending = [] ∧ State.reset.get F.bootStageStage = 0 ∧
    State.reset.get F.bootLockLock = 0 ∧ State.reset.get F.hiveZeroBusy = 1 ∧ State.reset.jobState = jsIdle ∧
    State.reset.get F.jobOwnerValid = 0 ∧ State.reset.get F.clkStateState = 0 ∧ State.reset.get F.eidPartPart = 0xE3A1 ∧
    (∀ n, State.reset.link n = Link.reset) ∧ (∀ n, n < 64 → State.reset.linkState n = lsOff) ∧
    ∀ off, State.reset.word off = regReset State.reset.fuses (regHome off)

/-- The invariants of Safety.lean hold at reset: canonical maps and complete units, and no control error. -/
def Obligations.ResetIsCanonical : Prop :=
  State.reset.canonical = true ∧ State.reset.errs = []

/-- The invariant of Safety.lean that every step keeps: the Hive's memory, the register file, the route table and the Keeper
memories stay canonical (addresses strictly rising, no entry equal to what an unlisted address reads as), and every unit of
R2 keeps its credits and queues. -/
def Obligations.EveryStepKeepsTheCanonicalForm : Prop :=
  ∀ s t : State, s.canonical = true → step s = .next t → t.canonical = true

/-- R464 to R467: the control errors that a command detects are acted on by its end, and none is left for the next. -/
def Obligations.EveryStepSettlesItsErrors : Prop :=
  ∀ s t : State, s.errs = [] → step s = .next t → t.errs = []

/-- R51: an assertion of erp_rst_n and a fall of erp_pwr_good put every register and unit into its reset state: the whole
machine is that of a release, held in reset. What the engine has sent, and the queue, stay as they are. R409: the release
leaves every register at its reset value and every unit in its reset state, and starts TMR_NOW at 0, in S0. -/
def Obligations.ResetPinsResetAndRelease : Prop :=
  (∀ s t : State, t = { State.released s.fuses with
      chip := { Chip.reset with inReset := true }, outs := s.outs, freeCtr := s.freeCtr, pending := s.pending } →
    exec .erpRstNAssert s = .next t ∧ exec .erpPwrGoodFall s = .next t ∧ t.chip.fastOn = false ∧
      (∀ off, t.word off = regReset s.fuses (regHome off)) ∧ ∀ n, t.link n = Link.reset) ∧
  (∀ s t : State, s.chip.inReset = true →
    t = { State.released s.fuses with outs := s.outs, freeCtr := s.freeCtr, pending := s.pending } →
    exec .erpRstNRelease s = .next t ∧ t.chip = Chip.reset ∧ t.chip.now = 0 ∧
      (∀ off, t.word off = regReset s.fuses (regHome off)) ∧ t.get F.bootStageStage = 0)

/-! ### The staged start -/

/-- R409, R42, R43, R52: with a flash that SFDP describes and that is large enough, S1 is entered: the fast clocks run, the
Hive's zeroisation is under way, the flash has been reset and its SFDP read at 25 MHz, the read mode and its clock are chosen
and entered, and slot A is being read; that the key hash is asked for at this moment is the model's reading (log entry 75). R423 code 1: a flash without SFDP, or one that is too small, fails the start:
the fast clocks stop, in S0. -/
def Obligations.S1EntryReadsTheImageOrFails : Prop :=
  (∀ (s : State) (f : FlashAd), s.powered = true → s.errs = [] → s.get F.bootStageStage = 0 → s.chip.failed = false →
    s.chip.fastOn = false → f.sfdp = true → 0x4000000 ≤ f.density →
    ∃ t, exec (.s1Entry f) s = .next t ∧ t.chip.fastOn = true ∧ t.chip.flashDriven = true ∧ t.get F.bootStageStage = 1 ∧
      t.get F.hiveZeroBusy = 1 ∧ t.get F.bootSlotMode = (if f.octal then 0 else if f.quad then 1 else 2) ∧
      t.boot.clk = (if f.octal then min 200 f.octalMhz else if f.quad then min 100 f.quadMhz else 25) ∧
      Out.flashReset ∈ t.outs ∧ Out.flashSfdp 0x5A 25 ∈ t.outs ∧ Out.flashRead 0 256 ∈ t.outs ∧
      (f.octal = true → ∀ w ∈ f.config, Out.flashConfig w ∈ t.outs) ∧ t.boot.reading = true ∧ t.boot.slot = 0 ∧
      t.mbox = s.mbox ++ [⟨opBootKeyReq, (s.mboxTag + 1) % 65536, s.chip.now, []⟩] ∧ t.hive.mem = s.hive.mem ∧
      t.links = s.links ∧ t.job = s.job) ∧
  (∀ (s : State) (f : FlashAd), s.powered = true → s.errs = [] → s.get F.bootStageStage = 0 → s.chip.failed = false →
    s.chip.fastOn = false → (f.sfdp = false ∨ f.density < 0x4000000) →
    ∃ t, exec (.s1Entry f) s = .next t ∧ t.chip.fastOn = false ∧ t.chip.failed = true ∧ t.get F.bootStageStage = 0 ∧
      t.get F.bootStatusCode = 1 ∧ t.mbox = [])

/-- R416, R477: a BOOT_KEY_RSP that answers the outstanding request, while no slot is held yet, leaves the key hash and the
least security version; with a slot held, the image is judged with them. R477, R421, R411: the acknowledgement of the
measurement applies the accepted image: BOOT_LOCK is set, the flash port is let go and preparation begins. -/
def Obligations.RotAnswersAdvanceTheStart : Prop :=
  (∀ (s : State) (m : List Word), s.powered = true → s.errs = [] → mboxOk m = true → mboxOp m = 0x81 →
    s.get F.bootStageStage = 1 → s.mbox.any (fun r => r.op == opBootKeyReq && r.tag == mboxTagOf m) = true →
    ∃ u, u.boot.keyHash = some (wordsBytes ((m.drop 1).take 12)) ∧ u.boot.minSvn = (m.getD 13 0).toNat ∧
      u.boot.held = s.boot.held ∧ u.regs = s.regs ∧
      u.mbox = s.mbox.filter (fun r => !(r.op == opBootKeyReq && r.tag == mboxTagOf m)) ∧
      (s.boot.held = none → exec (.bootKeyRsp m) s = .next u) ∧
      (∀ b, s.boot.held = some b → exec (.bootKeyRsp m) s = .next u.judge.actOnErrors)) ∧
  (∀ (s : State) (m : List Word) (b : List Byte), s.powered = true → s.errs = [] → mboxOk m = true → mboxOp m = 0x82 →
    s.boot.accepted = some b → s.mbox.any (fun r => r.op == opMeasure && r.tag == mboxTagOf m) = true →
    ∃ t, exec (.measureAck m) s = .next t ∧ t.get F.bootLockLock = 1 ∧ t.get F.bootStagePrep = 1 ∧
      t.chip.flashDriven = false ∧ t.boot.accepted = none ∧ t.boot.prepAt = some s.chip.now ∧ t.keep.started = true)

/-- R416 to R424: a slot whose header, key hash, signature, version and records pass is accepted: its measurement is shown,
BOOT_SLOT names the slot and its version, and the measurement is sent in a MEASURE message with the slot and its version
(R417, R477). The image was read from the slot's base (R413). R423, R424: a slot that cannot be read, or whose header fails,
is recorded with its code; slot A leads to slot B, whose header is read from 0x0200_0000. -/
def Obligations.SlotsAreAcceptedOrRecorded : Prop :=
  (∀ (s : State) (b key : List Byte), s.powered = true → s.errs = [] → s.get F.bootStageStage = 1 →
    s.boot.reading = true → s.boot.keyHash = some key → 256 ≤ b.length → imgBytes b + 96 ≤ b.length →
    headerOk b = true → s.partOk b = true → sha384 (slice b 32 96) = key → signatureOk b = true →
    s.boot.minSvn ≤ (wordAt b 4).toNat →
    (({ s with boot := { s.boot with reading := false, held := some b } } : State).emit
      (.flashRead (slotBase s.boot.slot) (imgBytes b + 96))).recordsCode b = (0, 0, 0) →
    ∃ t, exec (.imageSlotReadDone (some b)) s = .next t ∧ t.boot.accepted = some b ∧ t.boot.held = none ∧
      t.get F.bootSlotValid = 1 ∧ t.get F.bootSlotSlot = s.boot.slot % 2 ∧ t.get F.bootSlotSvn = fld (wordAt b 4) 15 0 ∧
      t.word R.bootImgVer = wordAt b 7 ∧
      (∀ i, i < 12 → t.word (R.bootMeas i) = (bytesWords 12 (imgDigest b)).getD i 0) ∧
      (∀ w, w = bytesWords 12 (imgDigest b) ++ [at_ 0 s.boot.slot, wordAt b 4] →
        t.mbox = s.mbox ++ [⟨opMeasure, (s.mboxTag + 1) % 65536, s.chip.now, w⟩] ∧
        t.outs = Out.mbox (mboxMsg opMeasure ((s.mboxTag + 1) % 65536) w) ::
          Out.flashRead (slotBase s.boot.slot) (imgBytes b + 96) :: s.outs) ∧
      t.get F.bootStageStage = 1 ∧ t.hive = s.hive ∧ t.links = s.links ∧ t.job = s.job) ∧
  (∀ (s : State) (data : Option (List Byte)), s.powered = true → s.errs = [] → s.get F.bootStageStage = 1 →
    s.boot.reading = true → s.boot.slot = 0 →
    (data = none ∨ ∃ b, data = some b ∧ 256 ≤ b.length ∧ headerOk b = false) →
    ∃ t, exec (.imageSlotReadDone data) s = .next t ∧ t.get F.bootStatusACode = (if data = none then 2 else 3) ∧
      t.boot.slot = 1 ∧ t.boot.reading = true ∧ t.boot.held = none ∧ t.get F.bootStageStage = 1 ∧
      t.outs = Out.flashRead 0x2000000 256 :: s.outs ∧ t.hive = s.hive ∧ t.links = s.links ∧ t.job = s.job)

/-- R423 code 12 and R423 code 11: Keepers that are not ready within 20 ms, and a failed self-test, fail the start. R411,
R409, R27, R29: preparation that ends well, with the Hive zeroised, no drain latched and FLEET 0, enters S2: the first
credits of every die port are owed and svc_led_ok is on. R426: a write of FLEET 1 in S2 enters S3. -/
def Obligations.PreparationEndsAndStagesFollow : Prop :=
  ((∀ (s : State) (t0 : Nat), s.powered = true → s.errs = [] → s.boot.prepAt = some t0 → s.flag F.bootStagePrep = true →
    t0 + 20000000 ≤ s.chip.now → s.cycleOver = true →
    ∃ t, exec .keeperReadyTimeout s = .next t ∧ t.get F.bootStatusCode = 12 ∧ t.get F.bootStageStage = 0 ∧
      t.get F.bootStagePrep = 0 ∧ t.chip.fastOn = false ∧ t.chip.failed = true) ∧
  ∀ s : State, s.powered = true → s.errs = [] → s.flag F.bootStagePrep = true →
    ∃ t, exec (.preparationDone false) s = .next t ∧ t.get F.bootStatusCode = 11 ∧ t.get F.bootStageStage = 0 ∧
      t.chip.fastOn = false ∧ t.chip.failed = true) ∧
  (∀ s : State, s.powered = true → s.errs = [] → s.flag F.bootStagePrep = true → s.flag F.hiveZeroBusy = false →
    s.chip.drainLatched = false → s.flag F.bootCtlFleet = false →
    ∃ t, exec (.preparationDone true) s = .next t ∧ t.get F.bootStageStage = 2 ∧ t.get F.bootStagePrep = 0 ∧
      t.chip.ledOk = true ∧ t.boot.prepAt = none ∧ t.links = s.links ∧ t.hive = s.hive ∧
      ∀ a, a < s.nRegions → a < s.ports.length → (s.port a).owed.length = 3 →
        (t.port a).owed = [(s.port a).owed.getD 0 0 + 256, (s.port a).owed.getD 1 0 + 256, (s.port a).owed.getD 2 0 + 128]) ∧
  (∀ (s : State) (p : Nat) (v : Word), p < 4 → s.powered = true → s.errs = [] → s.get F.bootStageStage = 2 →
    s.flag F.bootLockLock = true → bit v 0 = true →
    ∃ t, exec (.bootFleetWrite p v) s = .next t ∧ t.get F.bootStageStage = 3 ∧ t.flag F.bootCtlFleet = true ∧
      t.hive = s.hive ∧ t.job = s.job ∧ t.step = s.step)

/-! ### Sideband pins -/

/-- R47: an assertion of thm_alert_n is counted in a sticky counter, raises THERMAL and is in the next Ask's record; clocks,
voltage, timers and schedule stay as they are. R394: the Ask of a load has every count at 0, so it tells of the alert in
A2.THERMAL alone. -/
def Obligations.ThermalAlertIsCountedAndReported : Prop :=
  ∀ s : State, s.powered = true → s.errs = [] →
    ∃ t, exec .thmAlert s = .next t ∧ t.word R.rasThmCnt = s.word R.rasThmCnt + 1 ∧
      (∀ u : State, u.regsWf = true → u.partitionRegs.word R.rasThmCnt = u.word R.rasThmCnt) ∧
      bit (t.word R.jobEvt) evThermal = true ∧
      (∀ h, bit ((t.askWords h).getD 2 0) 6 = true ∧
        (t.askWords h).getD 19 0 = if h.load then 0 else BitVec.ofNat 32 (s.step.cnt.thm + 1)) ∧
      s.keepsRegsBut t [R.rasThmCnt, R.jobEvt] ∧ t.chip = s.chip ∧ t.power = s.power ∧ t.timers = s.timers ∧
      t.job = s.job ∧ t.hive = s.hive ∧ t.links = s.links ∧
      t.step = { s.step with cnt := { s.step.cnt with thm := s.step.cnt.thm + 1 } }

/-- R34: a pulse of lnk_fec_corr[n] is counted in LINK_FEC_CNT[n], and nothing else changes. R46: an accepted edge of
erp_sync_in, with no armed barrier, captures TMR_NOW less 20; an edge that the filter drops does nothing. -/
def Obligations.SidebandPulsesAct : Prop :=
  (∀ (s : State) (n : Nat), s.hasLink n = true → s.powered = true → s.errs = [] →
    exec (.fecCorrPulse n) s = .next (s.inc (R.linkCnt n lkFec) 1)) ∧
  ((∀ (s : State) (ns : Nat), s.powered = true → s.errs = [] → s.syncOk ns = true →
    (s.bar.open_ && s.bar.armed) = false → 20 ≤ s.chip.now → s.chip.now < 2 ^ 64 →
    ∃ t, exec (.syncInEdge ns) s = .next t ∧ t.pair R.tmrCapLo = s.chip.now - 20 ∧ t.chip.syncLast = some s.chip.now ∧
      s.keepsRegsBut t [R.tmrCapLo, R.tmrCapHi] ∧ t.bar = s.bar ∧ t.hive = s.hive) ∧
  (∀ (s : State) (ns : Nat), s.powered = true → s.errs = [] →
    (ns < 20 ∨ ∃ t0, s.chip.syncLast = some t0 ∧ s.chip.now < t0 + 1000) → exec (.syncInEdge ns) s = .next s) ∧
  ∀ (s : State) (ns : Nat), s.powered = true → s.syncOk ns = true → s.bar.open_ = true → s.bar.armed = true →
    exec (.syncInEdge ns) s =
      .next ((s.updChip (fun c => { c with syncLast := some s.chip.now })).inc R.swarmCapsupCnt
        1).barFired.finishStep.actOnErrors)

/-- R255: before S2 an assertion of svc_drain_n is latched; from S2 on it raises DRAIN and starts the drain, in state 1 for
a member and in state 3 for a package that is no member and still runs a job. R255: svc_led_ok changes each 250 ms in the
drain states 1 to 3. -/
def Obligations.ServiceDrainStartsAndBlinks : Prop :=
  ((∀ s : State, s.powered = true → s.errs = [] → s.get F.bootStageStage < 2 →
    exec .svcDrain s = .next (s.updChip (fun c => { c with drainLatched := true }))) ∧
  ∀ s : State, s.powered = true → s.errs = [] → 2 ≤ s.get F.bootStageStage → s.get F.rosterStatusDrain = 0 →
    (s.member = true ∨ (s.jobState = jsRunning ∧ s.flag F.hiveZeroBusy = false)) →
    ∃ t, exec .svcDrain s = .next t ∧ t.get F.rosterStatusDrain = (if s.member then 1 else 3) ∧
      bit (t.word R.jobEvt) evDrain = true ∧ t.chip.blinkAt = s.chip.now ∧ t.chip.ledOk = s.chip.ledOk ∧
      t.jobState = s.jobState ∧ t.hive = s.hive ∧ t.step = s.step ∧ t.links = s.links) ∧
  (∀ s : State, s.powered = true → s.errs = [] → 1 ≤ s.get F.rosterStatusDrain → s.get F.rosterStatusDrain ≤ 3 →
    s.chip.blinkAt + 250000000 ≤ s.chip.now → s.cycleOver = true →
    exec .drainLedBlink s =
      .next { s with chip := { s.chip with ledOk := !s.chip.ledOk, blinkAt := s.chip.blinkAt + 250000000 } })

/-! ### The control window, telemetry and debug -/

/-- R6: an access that is not an aligned 32-bit access, or that names no register, has no effect but to be counted; a read
returns zero. That an unaligned access, or one of another size, is counted also inside a range that R36, R480 or R487 leaves
uncounted is the model's choice (log entry 96). -/
def Obligations.BadAccessIsCountedAndReadsZero : Prop :=
  ∀ (s : State) (p off size : Nat) (d : AccDir), p < 4 → s.powered = true → s.errs = [] →
    (size ≠ 4 ∨ off % 4 ≠ 0 ∨ (s.closed off = false ∧ regSpec off = none)) →
    ∃ t, exec (.regBadAccess p d off size) s = .next t ∧ t = { s.inc R.rasBadaccCnt 1 with rdata := t.rdata } ∧
      t.rdata = (match d with | .read => 0 | .write => s.rdata)

/-- R9: the read capture of a pair. A read of _LO captures the upper half; the next read of _HI returns it and clears the
mark; with no capture pending, _HI shows its present value. None of these accesses is counted. R9: the held write of a pair.
A write of _LO is held and replaces a held one; a write of _HI commits both halves, or the upper half alone where none is
held. None of these accesses is counted. -/
def Obligations.PairsReadAndWriteTogether : Prop :=
  (∀ (s : State) (p off : Nat), p < 4 → s.powered = true → s.errs = [] → isPairLo off = true → s.closed off = false →
    s.closed (off + 4) = false →
    exec (.pairLoRead p off) s =
      .next { s with rdata := s.shown off, pairCap := SMap.set noneAt s.pairCap off (some (s.shown (off + 4))) } ∧
    (∀ w, SMap.get noneAt s.pairCap off = some w →
      exec (.pairHiRead p (off + 4)) s = .next { s with rdata := w, pairCap := SMap.set noneAt s.pairCap off none }) ∧
    (SMap.get noneAt s.pairCap off = none → exec (.pairHiRead p (off + 4)) s = .next { s with rdata := s.shown (off + 4) })) ∧
  (∀ (s : State) (p off : Nat) (v : Word) (rl rh : RegSpec), p < 4 → s.powered = true → s.errs = [] →
    isPairLo off = true → s.closed off = false → s.closed (off + 4) = false → regSpec off = some rl →
    regSpec (off + 4) = some rh →
    exec (.pairLoWrite p off v) s = .next { s with pairHeld := SMap.set noneAt s.pairHeld off (some v) } ∧
    (∀ w, SMap.get noneAt s.pairHeld off = some w →
      ∃ t, exec (.pairHiWrite p (off + 4) v) s = .next t ∧ t.word off = s.hostWord rl off w ∧
        t.word (off + 4) = s.hostWord rh (off + 4) v ∧ SMap.get noneAt t.pairHeld off = none ∧
        s.keepsRegsBut t [off, off + 4]) ∧
    (SMap.get noneAt s.pairHeld off = none →
      ∃ t, exec (.pairHiWrite p (off + 4) v) s = .next t ∧ t.word off = s.word off ∧
        t.word (off + 4) = s.hostWord rh (off + 4) v ∧ s.keepsRegsBut t [off + 4]))

/-- R7, R490: a host write of a plain register sets its RW bits, and its IL/RW bits once BOOT_LOCK is set, clears its W1C
bits written 1, and leaves every other bit and register; while a job is RUNNING, a word with IL/RW bits for which its
chapter names no time of its own (`ownTimeReg`) keeps its effect until the step boundary. R302, R458: a link's timers and
its arbiter's limit keep theirs until the link's next flit slot, and CLK_PWR_CTL and CLK_WAKE until the next gap. R102:
SIEVE_CTL keeps its effect until its Sieve starts the next (layer, half). -/
def Obligations.HostWriteFollowsAccessCodes : Prop :=
  ∀ (s : State) (p off : Nat) (v : Word) (r : RegSpec), p < 4 → s.powered = true → s.errs = [] → plainReg off = true →
    s.closed off = false → regSpec off = some r →
    ∃ t, exec (.regWrite p off v) s = .next t ∧
      t.word off = ((s.word off &&& ~~~(BitVec.ofNat 32 (r.rw ||| (if s.flag F.bootLockLock then r.ilrw else 0)))) |||
        (v &&& BitVec.ofNat 32 (r.rw ||| (if s.flag F.bootLockLock then r.ilrw else 0)))) &&&
          ~~~(v &&& BitVec.ofNat 32 r.w1c) ∧
      s.keepsRegsBut t [off] ∧
      (r.ilrw ≠ 0 → s.jobState = jsRunning → slotReg off = false → gapReg off = false → ownTimeReg off = false →
        t.effWord off = s.effWord off) ∧
      (r.ilrw ≠ 0 → sieveCtlReg off = true → t.effWord off = s.effWord off) ∧
      (slotReg off = true ∨ gapReg off = true → ∀ hi lo, t.slotGet ⟨off, hi, lo⟩ = s.slotGet ⟨off, hi, lo⟩) ∧
      t = { s with regs := t.regs, effOld := t.effOld, slotOld := t.slotOld }

/-- R286: after BOOT_LOCK a write of LINK_RT_DATA writes the route of the member that LINK_RT_IDX names; R487 and R36: a
write of a register that does not answer is ignored. R40 and R474: writing 1 to a bit of JOB_EVT clears it, and writing 1 to
RAS_ERR_FIRST.VALID clears that; nothing else changes. R154, R216, R493: WHISK_SCALE_SET takes LAYER and OFFSET with PEND;
CLU_FLUSH takes its scope and stream at once, and a flush of every stream widens one of a single stream; TEL_CTL.SNAP asks
for a snapshot. That a CLU_FLUSH shows ACTIVE in the same command, where R216 and R217 speak of the next packet boundary, is
the model's choice (log entry 10). R226: a write of CLU_EVT_RD sets the read index, and COUNT to INDEX less it modulo 64. -/
def Obligations.CommandRegistersTakeTheirWrites : Prop :=
  ((∀ (s : State) (p n : Nat) (v : Word), p < 4 → s.hasLink n = true → s.powered = true → s.errs = [] →
    s.chip.fastOn = true → s.flag F.bootLockLock = true → s.limbo = [] →
    exec (.regWrite p (R.linkRtData n) v) s =
      .next { s with routes := SMap.set routeReset s.routes (s.get (F.linkRtIdxMember 0)) v }) ∧
  ∀ (s : State) (p off : Nat) (v : Word), p < 4 → s.errs = [] → off % 4 = 0 → s.closed off = true →
    exec (.regWrite p off v) s = .next s) ∧
  (∀ (s : State) (p : Nat) (v : Word), p < 4 → s.powered = true → s.errs = [] →
    (s.chip.fastOn = true →
      exec (.jobEvtClear p v) s = .next (s.setWord R.jobEvt (s.word R.jobEvt &&& ~~~(v &&& 0x7F#32)))) ∧
    exec (.rasErrFirstClear p v) s = .next (s.setWord R.rasErrFirst (s.word R.rasErrFirst &&& ~~~(v &&& 0x800000#32)))) ∧
  ((∀ (s : State) (p : Nat) (v : Word), p < 4 → s.powered = true → s.errs = [] → s.chip.fastOn = true →
    exec (.whiskScaleSet p v) s = .next (s.setWord R.whiskScaleSet (0x10000#32 ||| (v &&& 0xFFFF#32)))) ∧
  (∀ (s : State) (p c : Nat) (v : Word), p < 4 → s.hasCluster c = true → s.powered = true → s.errs = [] →
    s.chip.fastOn = true → s.flag (F.cluFlushActive c) = false → fld v 31 30 = 1 →
    exec (.cluFlushStream p c v) s = .next (s.setWord (R.cluFlush c) (0x60000000#32 ||| at_ 0 (fld v 13 0)))) ∧
  (∀ (s : State) (p c : Nat) (v : Word), p < 4 → s.hasCluster c = true → s.powered = true → s.errs = [] →
    s.chip.fastOn = true → 2 ≤ fld v 31 30 →
    (s.flag (F.cluFlushActive c) = false →
      exec (.cluFlushAll p c v) s = .next (s.setWord (R.cluFlush c)
        (at_ 30 (fld v 31 30) ||| at_ 29 1 ||| at_ 0 (fld v 13 0)))) ∧
    (s.flag (F.cluFlushActive c) = true → s.get (F.cluFlushScope c) = 1 →
      exec (.cluFlushAll p c v) s = .next (s.setWord (R.cluFlush c)
        (at_ 30 (fld v 31 30) ||| at_ 29 1 ||| at_ 0 (fld v 13 0))))) ∧
  ∀ (s : State) (p : Nat) (v : Word), p < 4 → s.powered = true → s.errs = [] → s.chip.fastOn = true → bit v 0 = true →
    ∃ t, exec (.telSnapRequest p v) s = .next t ∧ t.tel.request = true ∧ t.word R.telCtl = 1#32 ∧
      s.keepsRegsBut t [R.telCtl] ∧ t = { s with regs := t.regs, tel := t.tel }) ∧
  (∀ (s : State) (p c : Nat) (v : Word), p < 4 → s.hasCluster c = true → s.powered = true → s.errs = [] →
    s.chip.fastOn = true →
    ∃ t, exec (.cluEvtRdWrite p c v) s = .next t ∧ t.get (F.cluEvtRdRd c) = fld v 5 0 ∧
      t.get (F.cluEvtWrCount c) = (s.get (F.cluEvtWrIndex c) + 64 - fld v 5 0) % 64 ∧
      t.get (F.cluEvtWrIndex c) = s.get (F.cluEvtWrIndex c) ∧ s.keepsRegsBut t [R.cluEvtRd c, R.cluEvtWr c] ∧
      t = { s with regs := t.regs })

/-- R493: a snapshot, at the timer's expiry or on a request, copies every live counter, stamps TMR_NOW, counts itself and
clears the two interval counters. R451: the expiry of the KEEPER_TICK timer delivers one tick to the firmware, and the
registers stay as they are where the Keepers run; that it wakes the engine from E2 and E3, where the region Keepers do not
run, is the model's reading of R443 (log entry 113). R496: with every Keeper halted the timer runs on and no tick is taken.
R463, R473: a scrub's corrected words are counted; an uncorrectable one is a fatal error. -/
def Obligations.SnapshotKeeperTickAndScrub : Prop :=
  (∀ s : State, s.powered = true → s.errs = [] → s.cycleOver = true → (s.due tmTel = true ∨ s.tel.request = true) →
    ∃ t, exec .telSample s = .next t ∧ (∀ i, i < 19 → t.word (R.telVal i) = s.tel.words.getD i 0) ∧
      t.word R.telSnapTLo = BitVec.ofNat 32 s.chip.now ∧ t.word R.telSnapTHi = BitVec.ofNat 32 (s.chip.now / 2 ^ 32) ∧
      t.word R.telSnapSeq = s.word R.telSnapSeq + 1 ∧
      t.tel = { s.tel with stepMax := 0, stepSum := 0, request := false } ∧ t.power = s.power ∧ t.hive = s.hive ∧
      t.get F.clkStateState = s.get F.clkStateState) ∧
  (∀ s : State, s.powered = true → s.errs = [] → s.cycleOver = true → s.due tmKeeper = true →
    ((∃ k, s.hasKeeper k = true ∧ s.keeperOn k = true) →
      ∃ t, exec .keeperTick s = .next t ∧ Out.keeperTick ∈ t.outs ∧ t.hive = s.hive ∧ t.keep = s.keep ∧
        (s.get F.clkStateState ≤ 1 → t.outs = Out.keeperTick :: s.outs ∧ t.regs = s.regs) ∧
        (2 ≤ s.get F.clkStateState → s.get F.clkStateState ≤ 3 → s.keeperOn 8 = true → t.get F.clkStateWaking = 1)) ∧
    ((∀ k, s.hasKeeper k = true → s.keeperOn k = false) →
      exec .keeperTick s = .next (s.periodNext tmKeeper) ∧ (s.periodNext tmKeeper).outs = s.outs ∧
        (s.periodNext tmKeeper).regs = s.regs)) ∧
  (∀ (s : State) (k : Nat), s.hasKeeper k = true → s.clocked = true → s.scrubDue = true → s.errs = [] →
    exec (.keeperScrub k .clean) s = .next { s with keep := { s.keep with scrubbed := s.chip.now } } ∧
    (∀ c, exec (.keeperScrub k (.corrected c)) s =
      .next (({ s with keep := { s.keep with scrubbed := s.chip.now } } : State).inc R.rasCeCnt c)) ∧
    ∃ t, exec (.keeperScrub k .uncorrectable) s = .next t ∧ t.get F.rasStatusFatal = 1 ∧ t.get F.rasStatusLastAction = 3 ∧
      bit (t.word R.jobEvt) evFault = true ∧
      (s.jobState = jsRunning → t.jobState = jsZeroising ∧ t.get F.jobStatusEndReason = 3))

/-- R495: in the OPEN state GO starts an access with the address, the direction and the data of that moment, unless one runs
already, in which case it is ignored. R495: the access ends. A write leaves its eight data words in the Hive at its address,
every other byte as it was; a read of sound words fills DBG_DATA with the bytes at its address and leaves the Hive's memory.
BUSY and ERR clear. R496: DBG_KEEPER.HALT takes the written mask of the nine Keepers. That a wake from E2 or E3 which the
halt of the Head Keeper held starts with its release is the model's reading (log entry 79). -/
def Obligations.DebugBlockReadsAndWritesTheHive : Prop :=
  (∀ (s : State) (p : Nat) (v : Word), p < 4 → s.powered = true → s.errs = [] → s.chip.fastOn = true →
    s.get F.secLifecycleState = 0 → bit v 31 = true →
    (s.flag F.dbgStatusBusy = false →
      ∃ t, exec (.dbgRead p v) s = .next t ∧ exec (.dbgWrite p v) s = .next t ∧
        t.word R.dbgCtl = v &&& 0xC0000000#32 ∧ t.get F.dbgStatusBusy = 1 ∧ s.keepsRegsBut t [R.dbgCtl, R.dbgStatus] ∧
        t = { s with regs := t.regs, bus := { s.bus with dbgGo := some (s.dbgAddr,
          if bit v 30 then some ((List.range 8).flatMap (fun w => wordBytes (s.word (R.dbgData w)))) else none) } }) ∧
    (s.flag F.dbgStatusBusy = true → exec (.dbgRead p v) s = .next s ∧ exec (.dbgWrite p v) s = .next s)) ∧
  (∀ (s : State) (a : Nat), s.clocked = true → s.errs = [] → s.flag F.dbgStatusBusy = true → s.hiveServes = true →
    (∀ d, s.bus.dbgGo = some (a, some d) →
      ∃ t, exec .dbgAccessDone s = .next t ∧ t.get F.dbgStatusBusy = 0 ∧ t.get F.dbgStatusErr = 0 ∧ t.bus.dbgGo = none ∧
        (∀ i, i < d.length → t.hiveByte (a + i) = d.getD i 0) ∧
        ∀ b, (b < a ∨ a + d.length ≤ b) → t.hiveByte b = s.hiveByte b) ∧
    (s.bus.dbgGo = some (a, none) → s.ueIn a 32 = false → Memory.wf s = true →
      (∀ j, j < 4 → s.inTileRec (a + 8 * j) = false) →
      ∃ t, exec .dbgAccessDone s = .next t ∧ t.get F.dbgStatusBusy = 0 ∧ t.get F.dbgStatusErr = 0 ∧ t.bus.dbgGo = none ∧
        (∀ w, w < 8 → wordBytes (t.word (R.dbgData w)) =
          (List.range 4).map (fun i => s.hiveByte (a + 4 * w + i))) ∧ t.hive.mem = s.hive.mem)) ∧
  (∀ (s : State) (p : Nat) (v : Word), p < 4 → s.powered = true → s.errs = [] → s.chip.fastOn = true →
    s.get F.secLifecycleState = 0 →
    ((bit v 8 = true ∨ s.power.wakeHeld = none ∧ s.job.held = none ∧ s.get F.rosterStatusDrain ≠ 3) →
      ∃ t, exec (.dbgKeeperHalt p v) s = .next t ∧ t.get F.dbgKeeperHalt = fld v 8 0 ∧
        s.keepsRegsBut t [R.dbgKeeper] ∧ t = { s with regs := t.regs }) ∧
    ∀ c, bit v 8 = false → s.power.wakeHeld = some c → wakesFrom c (s.get F.clkStateState) = true →
      2 ≤ s.get F.clkStateState → s.flag F.clkStateWaking = false → s.job.held = none → s.get F.rosterStatusDrain ≠ 3 →
      ∃ t, exec (.dbgKeeperHalt p v) s = .next t ∧ t.get F.dbgKeeperHalt = fld v 8 0 ∧ t.get F.clkStateWaking = 1 ∧
        t.power.wakeHeld = none ∧ t.power.wakeT0 = s.chip.now ∧ t.hive = s.hive ∧ t.step = s.step ∧ t.job = s.job)

/-- R480: outside the OPEN state every request of the debug port is refused and counted, and nothing else changes; in the
OPEN state a request of the Hive, a Keeper or the DBG block is served; one of a Hive in self-refresh waits for the next wake
(R190), and that it waits too in a zeroisation pass, before the fast clocks run and in E2 and E3 is the model's reading (log
entry 78). R480: the lifecycle state that the root of trust reports is taken once after a release, and governs link
encryption. -/
def Obligations.LifecycleGovernsTheDebugPort : Prop :=
  (∀ s : State, s.powered = true → s.errs = [] →
    (s.get F.secLifecycleState ≠ 0 → ∀ r, exec (.debugPortRequest r) s = .next (s.inc R.secDbgDenyCnt 1)) ∧
    (s.get F.secLifecycleState = 0 →
      (∀ a d, s.hiveServes = true → a + d.length ≤ hiveSize →
        ∃ t, exec (.debugPortRequest (.hiveWrite a d)) s = .next t ∧
          (∀ i, i < d.length → t.hiveByte (a + i) = d.getD i 0) ∧
          ∀ b, (b < a ∨ a + d.length ≤ b) → t.hiveByte b = s.hiveByte b) ∧
      (∀ r, s.hiveServes = false → (∃ a, r = DbgReq.hiveRead a) ∨ (∃ a d, r = DbgReq.hiveWrite a d) →
        exec (.debugPortRequest r) s = .next { s with bus := { s.bus with dbgWait := s.bus.dbgWait ++ [r] } }) ∧
      (∀ a, s.hiveServes = true → a + 32 ≤ hiveSize → s.ueIn a 32 = false → Memory.wf s = true →
        (∀ j, j < 4 → s.inTileRec (a + 8 * j) = false) →
        ∃ t, exec (.debugPortRequest (.hiveRead a)) s = .next t ∧
          t.outs = Out.debug ((List.range 32).map (fun i => s.hiveByte (a + i))) :: s.outs ∧ t.hive.mem = s.hive.mem) ∧
      (∀ k a, s.hasKeeper k = true → a + 8 ≤ keeperSize → s.keepWf = true →
        exec (.debugPortRequest (.keeperRead k a)) s =
          .next (s.emit (.debug ((List.range 8).map (fun i => s.keeperByte k (a + i)))))) ∧
      (∀ k a d, s.hasKeeper k = true → k < s.keep.mem.length → a + d.length ≤ keeperSize →
        ∃ t, exec (.debugPortRequest (.keeperWrite k a d)) s = .next t ∧
          (∀ i, i < d.length → t.keeperByte k (a + i) = d.getD i 0) ∧
          (∀ b, (b < a ∨ a + d.length ≤ b) → t.keeperByte k b = s.keeperByte k b) ∧
          ∀ j, j ≠ k → t.keeperMem j = s.keeperMem j) ∧
      (∀ off, inDbg off = true → exec (.debugPortRequest (.regRead off)) s =
        .next ((s.windowRead off).emit (.debug (wordBytes (s.windowRead off).rdata)))) ∧
      ∀ off v, inDbg off = true → exec (.debugPortRequest (.regWrite off v)) s = .next (s.hostWrite 0 off v).actOnErrors)) ∧
  (∀ (s : State) (st : BitVec 2), s.powered = true → s.errs = [] →
    (s.chip.lifeReported = true → exec (.rotLifecycleReport st) s = .next s) ∧
    (s.chip.lifeReported = false →
      ∃ t, exec (.rotLifecycleReport st) s = .next t ∧ t.get F.secLifecycleState = st.toNat ∧
        t.chip = { s.chip with lifeReported := true } ∧ s.keepsRegsBut t [R.secLifecycle] ∧
        (st ≠ 0 → ∀ n, t.encOn n = true) ∧ t = { s with regs := t.regs, chip := t.chip }))

/-! ### Jobs -/

/-- R390, R399: START and RESUME, in IDLE from S2 on, give the next job id, the owner port and the load. R400: RELOAD in
FAULTED loads the model again for the same job and owner. -/
def Obligations.JobCommandsStartTheLoad : Prop :=
  (∀ (s : State) (p kind : Nat) (i : Instr), (i = .jobStart p ∧ kind = 1 ∨ i = .jobResume p ∧ kind = 2) → p < 4 →
    s.powered = true → s.chip.fastOn = true → s.errs = [] → s.jobState = jsIdle → 2 ≤ s.get F.bootStageStage →
    s.flag F.rasStatusFatal = false → s.flag F.hiveZeroBusy = false →
    ∃ t, exec i s = .next t ∧ t.jobState = jsLoading ∧ t.get F.jobIdId = next16 (s.get F.jobIdId) ∧
      t.get F.jobOwnerValid = 1 ∧ t.get F.jobOwnerPort = p ∧
      t.get (F.acctJobsStarted p) = (s.get (F.acctJobsStarted p) + 1) % 65536 ∧ t.job.loadKind = kind ∧
      t.job.ring = s.pair R.stepRingBaseLo ∧ t.job.ask = s.pair R.stepAskBaseLo ∧ t.job.modelAt = s.pair R.jobModelLo ∧
      t.job.saveAt = s.pair R.jobSaveLo ∧ t.job.log2 = clampNat (s.get F.stepRingSlotsLog2) 1 8 ∧
      Out.dmaRead p (s.pair R.jobModelLo) 64 ∈ t.outs ∧ t.hive = s.hive ∧ t.step = s.step ∧ t.links = s.links) ∧
  (∀ (s : State) (p : Nat), p < 4 → s.powered = true → s.chip.fastOn = true → s.errs = [] → s.jobState = jsFaulted →
    s.flag F.rasStatusFatal = false → s.flag F.hiveZeroBusy = false →
    ∃ t, exec (.jobReload p) s = .next t ∧ t.jobState = jsLoading ∧ t.job.loadKind = 3 ∧ t.job.model = none ∧
      t.get F.jobIdId = s.get F.jobIdId ∧ t.get F.jobOwnerPort = s.get F.jobOwnerPort ∧
      t.get F.jobOwnerValid = s.get F.jobOwnerValid ∧ t.hive = s.hive ∧ t.links = s.links)

/-- R401, R468: ABORT in RUNNING or FAULTED starts the partition reset after which the job ends with END_REASON 3; the link
keys stay until the pass is over, so that the LOSS of R468 still leaves (R295, R396). R390: a command that its state does
not allow, or a reserved code, is only counted. -/
def Obligations.AbortAndIgnoredCommands : Prop :=
  (∀ (s : State) (p : Nat), p < 4 → s.powered = true → s.chip.fastOn = true → s.errs = [] →
    (s.jobState = jsRunning ∨ s.jobState = jsFaulted) → s.flag F.rasStatusFatal = false →
    ∃ t, exec (.jobAbort p) s = .next t ∧ t.jobState = jsZeroising ∧ t.get F.jobStatusEndReason = 3 ∧
      t.job.after = .endJob ∧ (∀ n, (t.link n).keys = (s.link n).keys) ∧
      (s.flag F.rasStatusPartBusy = false → t.get F.hiveZeroBusy = 1) ∧
      t.fuses = s.fuses ∧ t.pending = s.pending) ∧
  ∀ (s : State) (p : Nat) (v : Word), p < 4 → s.powered = true → s.chip.fastOn = true → s.errs = [] →
    (5 ≤ v.toNat % 8 ∨ ((v.toNat % 8 = 1 ∨ v.toNat % 8 = 2) ∧ (s.jobState ≠ jsIdle ∨ s.get F.bootStageStage < 2)) ∨
      (v.toNat % 8 = 3 ∧ s.jobState ≠ jsFaulted) ∨
      (v.toNat % 8 = 4 ∧ s.jobState ≠ jsRunning ∧ s.jobState ≠ jsFaulted)) →
    exec (.jobCmdIgnored p v) s = .next ((s.put F.jobCtlCmd v.toNat).inc R.jobCmdIgnCnt 1)

/-- R392, R393: a descriptor that cannot be read fails the load with code 1, and the job ends with END_REASON 5. R392, R394:
a model whose segments and records pass, and that leaves room for one token, is loaded: the job runs, and after START the
awaited step is STEP_FIRST_SEQ. R400: after RELOAD the awaited step stays. R399: after RESUME the save area gives it, with
the scale table and the stream entries; a save area that cannot be read, or that fails its checks, fails the load with code
8. R377: the first read of the awaited slot starts with the load Ask; that a halted Head Keeper starts none is the model's reading
of R443 and R496 (log entry 79). -/
def Obligations.LoadFailsOrRunsTheModel : Prop :=
  (∀ (s : State) (d : LoadData), s.hiveUp = true → s.errs = [] → s.jobState = jsLoading → d.desc = none →
    ∃ t, exec (.modelLoadDone d) s = .next t ∧ t.jobState = jsZeroising ∧ t.get F.jobStatusEndReason = 5 ∧
      t.word R.jobLoadErr = 0x10000000#32 ∧ t.word R.rasDmaErrCnt = s.word R.rasDmaErrCnt + 1 ∧ t.job.after = .endJob ∧
      t.hive.mem = s.hive.mem) ∧
  (∀ (s s0 s1 s2 : State) (d : LoadData) (b : List Byte) (layers n : Nat), s.hiveUp = true → s.errs = [] →
    s.jobState = jsLoading → d.desc = some b → layers = fld (wordAt b 0) 8 0 →
    n = fld (wordAt b 1) 10 0 → 1 ≤ layers → layers ≤ 256 → 1 ≤ n → n ≤ 1024 →
    ((b.drop 64).take (32 * n)).length = 32 * n →
    wordAt b 15 = crc32c (b.take 60 ++ (b.drop 64).take (32 * n)) →
    s0 = s.dmaRead (s.job.modelAt + 64) (32 * n) →
    s0.badSeg ((chunksOf 32 n ((b.drop 64).take (32 * n))).map segOf) = none →
    s0.copySegs d ((chunksOf 32 n ((b.drop 64).take (32 * n))).map segOf).zipIdx = (s1, none) →
    s2 = s1.probeRecords layers → s2.recordsBad layers = none →
    (∀ w m : State, w = ((((List.range layers).foldl State.writeCsum s2).initScales layers).updRoster
        (fun r => { r with demand := [] })).clearGaps →
      m = w.updJob (fun j => { j with model := some ⟨layers, (w.modelLoad layers).ub, (w.modelLoad layers).uc,
        (w.modelLoad layers).us⟩ }) → m.fits (w.modelLoad layers) 1 = true →
      ((s.job.loadKind = 1 ∨ s.job.loadKind = 3) →
        ∃ t, exec (.modelLoadDone d) s = .next t ∧ t.jobState = jsRunning ∧ t.word R.jobLoadErr = 0 ∧
          t.word R.stepWaitSeq = (if s.job.loadKind = 1 then s.word R.stepFirstSeq else s.word R.stepWaitSeq) ∧
          (t.job.model.map (·.layers)) = some layers ∧ t.job.reads = s.job.reads ++ (if s.keeperOn 8 then [s.chip.now] else []) ∧
          t.step.inProg = false) ∧
      (s.job.loadKind = 2 → ∀ sb v, d.save = some sb → saveOf layers sb = some v →
        ∃ u t, u = (m.readSave sb).restore v ∧ exec (.modelLoadDone d) s = .next t ∧ t = (u.loaded true).actOnErrors ∧
          t.jobState = jsRunning ∧ t.word R.jobLoadErr = 0 ∧ t.word R.stepWaitSeq = BitVec.ofNat 32 v.next ∧
          (t.job.model.map (·.layers)) = some layers ∧ t.job.savedEpoch = v.epoch ∧
          (∀ l, l < 256 → t.word (R.whiskScale l) = wordAt v.scale l &&& 0xFFFF#32) ∧
          (∀ (i : Nat) e, v.streams[i]? = some e → (∀ (j : Nat) f, i < j → v.streams[j]? = some f → fld (wordAt f 0) 13 0 ≠ fld (wordAt e 0) 13 0) →
            ∀ k, k < e.length → k < 256 → u.hiveByte (streamBase + 256 * fld (wordAt e 0) 13 0 + k) = e.getD k 0)) ∧
      (s.job.loadKind = 2 → (d.save = none ∨ ∃ sb, d.save = some sb ∧ saveOf layers sb = none) →
        ∃ t, exec (.modelLoadDone d) s = .next t ∧ t.jobState = jsZeroising ∧ t.get F.jobStatusEndReason = 5 ∧
          t.word R.jobLoadErr = 0x80000000#32 ∧ t.job.after = .endJob)))

/-- R377: the poll timer's expiry starts a read of the awaited slot, whether or not an earlier one is done; R496: a halted
Head Keeper starts none, which is the model's reading of R496 and of R443, by which the Head Keeper issues the polls (log entry
79). R376: a slot whose read failed, or whose record fails its check or names another step or job, holds
no Recipe yet: the engine goes on waiting for it. R38, R393: a DMA read without completion is counted and taken by its kind:
no Recipe, a refusal with code 1, a load that fails with the code of what was read, or a control error. -/
def Obligations.RecipeSlotsArePolledAndAwaited : Prop :=
  (∀ s : State, s.clocked = true → s.errs = [] → s.stepping = true → s.step.inProg = false → s.job.held = none →
    s.flag F.rasStatusPartBusy = false → s.due tmPoll = true → s.cycleOver = true →
    (s.keeperOn 8 = true →
      ∃ t, exec .recipePoll s = .next t ∧ t.job = { s.job with reads := s.job.reads ++ [s.chip.now] } ∧
        t.outs = Out.dmaRead (s.get F.jobOwnerPort) (s.ringAddr s.nextSeq) 256 :: s.outs ∧ t.regs = s.regs ∧
        t.hive = s.hive ∧ t.step = s.step) ∧
    (s.keeperOn 8 = false → exec .recipePoll s = .next s)) ∧
  (∀ (s s0 : State) (list : Option (List Byte)), s.clocked = true → s.errs = [] → s.job.reads ≠ [] → s.stepping = true →
    s.step.inProg = false → s.flag F.rasStatusPartBusy = false → s.job.held = none → s.keeperOn 8 = true →
    s0 = { s with job := { s.job with reads := s.job.reads.drop 1 } } →
    exec (.recipeReadDone none list) s = .next (s0.inc R.rasDmaErrCnt 1) ∧
    ∀ b : List Byte, (recOk 64 (b.take 256) = false ∨ b.length < 256 ∨ (recipeOf b).seq ≠ s.nextSeq ∨
        (recipeOf b).jobId ≠ s.get F.jobIdId) →
      exec (.recipeReadDone (some b) list) s = .next s0) ∧
  (∀ s : State, s.clocked = true → s.errs = [] → s.cycleOver = true →
    (∀ t0 rest s0, s.job.reads = t0 :: rest → t0 + 50000 ≤ s.chip.now →
      s0 = ({ s with job := { s.job with reads := rest } } : State).inc R.rasDmaErrCnt 1 →
      exec (.dmaReadTimeout .slot) s = .next s0 ∧
      exec (.dmaReadTimeout .list) s = .next ((s0.put F.stepRefuseCode 1).inc R.stepRefuseCnt 1)) ∧
    (∀ k err, s.jobState = jsLoading → s.job.loadAt + 50000 ≤ s.chip.now →
      (k, err) ∈ [(DmaKind.model, 0x10000000#32)] ++ (List.range 1024).map (fun i =>
        (DmaKind.segment i, 0x30000000#32 ||| at_ 0 i)) ++
        (if s.job.loadKind = 2 then [(DmaKind.save, 0x80000000#32)] else []) →
      ∃ t, exec (.dmaReadTimeout k) s = .next t ∧ t.jobState = jsZeroising ∧ t.get F.jobStatusEndReason = 5 ∧
        t.word R.jobLoadErr = err ∧ t.word R.rasDmaErrCnt = s.word R.rasDmaErrCnt + 1) ∧
    (s.jobState = jsIdle → ∃ t, exec (.dmaReadTimeout .other) s = .next t ∧
      t.word R.rasDmaErrCnt = s.word R.rasDmaErrCnt + 1 ∧ t.word R.rasCtrlErrCnt = s.word R.rasCtrlErrCnt + 1 ∧
      t.get F.rasErrLastSrc = 2 ∧ t.word R.rasErrLastT = BitVec.ofNat 32 s.chip.now ∧ t.jobState = jsIdle ∧ t.errs = []))

/-- R376, R378: a Recipe of the awaited step and this job, without joins or leaves, is refused with its code, or accepted;
that one found valid in E2 or E3 wakes the engine and is held until it is awake is the model's reading of R190 (log entry
92). The first Recipe of an island job with no stream, nothing staged and no roster work begins the step. -/
def Obligations.RecipeIsRefusedOrBeginsItsStep : Prop :=
  ∀ (s s0 : State) (b : List Byte) (list : Option (List Byte)), s.clocked = true → s.errs = [] → s.job.reads ≠ [] →
    s.job.held = none → s.keeperOn 8 = true → s0 = { s with job := { s.job with reads := s.job.reads.drop 1 } } →
    s.stepping = true → s.step.inProg = false → s.flag F.rasStatusPartBusy = false → b.length = 256 →
    recOk 64 b = true → (recipeOf b).seq = s.nextSeq → (recipeOf b).jobId = s.get F.jobIdId → (recipeOf b).total = 0 →
    ((recipeOf b).endFlag && (recipeOf b).yield) = false →
    (s.bucketsOk (recipeOf b) = false →
      ∃ t, exec (.recipeReadDone (some b) list) s = .next t ∧ t.get F.stepRefuseCode = 3 ∧
        t.word R.stepRefuseCnt = s.word R.stepRefuseCnt + 1 ∧ t.step = s.step ∧ t.hive = s.hive ∧ t.job = s0.job) ∧
    (s.bucketsOk (recipeOf b) = true → 2 ≤ s.get F.clkStateState →
      exec (.recipeReadDone (some b) list) s =
        .next ((s0.startWake 6).updJob (fun j => { j with held := some (b, list.getD []) }))) ∧
    (s.bucketsOk (recipeOf b) = true → s.get F.clkStateState < 2 →
      exec (.recipeReadDone (some b) list) s = .next (s0.accept (recipeOf b) [] []).actOnErrors ∧
      ((recipeOf b).endFlag = false → (recipeOf b).yield = false → s.member = false → s.upset = [] → s.streamIds = [] →
        s.step.torn = [] → s.job.endSeq = none → s.get F.rosterStatusDrain = 0 → s.roster = Roster.reset →
        s.swarm = Swarm.reset → s.get F.bootStageStage = 2 → s.awake = true → s.flag F.whiskScaleSetPend = false →
        (∀ a, (s.port a).hs = []) →
        (∀ m v, s.rxq m v = []) → s.limbo = [] →
        ∃ t, exec (.recipeReadDone (some b) list) s = .next t ∧ t.step.inProg = true ∧
          t.step.ordered = (recipeOf b).ordered ∧ t.step.buckets = (recipeOf b).buckets ∧
          t.word R.stepLastSeq = BitVec.ofNat 32 (recipeOf b).seq ∧
          t.word R.stepWaitSeq = BitVec.ofNat 32 ((recipeOf b).seq + 1) ∧ t.get F.stepRefuseCode = 0 ∧
          t.job.anyAccepted = true ∧ ∀ off, sieveCtlReg off = false → t.effWord off = t.word off))

/-- R398, R396: the save area's header is written last, and the job goes on to its zeroisation with END_REASON 2. R388: with
no Recipe for JOB_IDLE_S the job ends with END_REASON 4. -/
def Obligations.SaveAndIdleEndTheJob : Prop :=
  (∀ s : State, s.clocked = true → s.errs = [] → s.jobState = jsSaving →
    ∃ t, exec .saveDone s = .next t ∧ t.jobState = jsZeroising ∧ t.get F.jobStatusEndReason = 2 ∧
      Out.dmaWrite (s.get F.jobOwnerPort) s.job.saveAt s.saveHeader ∈ t.outs ∧ t.job.after = .endJob ∧
      t.get F.bootStageMember = 0) ∧
  (∀ s : State, s.clocked = true → s.errs = [] → s.jobState = jsRunning → s.step.inProg = false →
    s.flag F.rasStatusPartBusy = false → s.due tmIdle = true → s.cycleOver = true →
    ∃ t, exec .jobIdleTimeout s = .next t ∧ t.jobState = jsZeroising ∧ t.get F.jobStatusEndReason = 4 ∧
      t.job.after = .endJob)

/-- R386, R387: the step deadline raises DEADLINE and is counted; before acceptance the engine waits on. In a step it is
also a control error. A deadline that has run out when its step is accepted is handled as before the acceptance and starts
again. -/
def Obligations.DeadlineIsRaisedAndCounted : Prop :=
  ∀ (s : State) (i : Nat), s.clocked = true → s.errs = [] → s.stepping = true → s.flag F.rasStatusPartBusy = false →
    s.timerOf tmDeadline = some i → s.timerHit i = true →
    s.restartDeadline = ((s.raise evDeadline).inc R.stepDeadlineCnt 1).arm tmDeadline s.deadlineUs ∧
    (s.cycleOver = true → s.step.inProg = false →
      ∃ t, exec .stepDeadlineExpiry s = .next t ∧ bit (t.word R.jobEvt) evDeadline = true ∧
        t.word R.stepDeadlineCnt = s.word R.stepDeadlineCnt + 1 ∧ t.timer i = Timer.off ∧ t.step = s.step ∧
        t.job = s.job ∧ t.hive = s.hive) ∧
    (s.cycleOver = true → s.step.inProg = true →
      exec .stepDeadlineExpiry s = .next ((((((s.raise evDeadline).inc R.stepDeadlineCnt 1).disarm tmDeadline).updCnt
        (fun c => { c with deadline := true })).startWake 4).err srcDeadline 0 none).actOnErrors)

/-- R192, R396: the end of a zeroisation pass lays the Hive out afresh, with nothing in it but the free lists, clears BUSY
and counts itself; a job that was ending is over, with JOB_DONE, one end counted to its owner and the link keys erased.
R255: in drain state 3 the pass that ends the last job leaves the engine safe to remove, parked in E3 (R442), and that a job which
would be FAULTED is ended with END_REASON 6 instead, and the Hive zeroised again, is the model's reading (log entry 71); that a halt of the Head Keeper, which asks for E3's setpoint, holds both
is the model's reading of R496 (log entry 79). That debug accesses which waited for the pass are made after it is the
model's reading (log entry 78). -/
def Obligations.ZeroisationRebuildsTheHive : Prop :=
  ∀ s : State, s.hiveUp = true → s.errs = [] → s.flag F.hiveZeroBusy = true →
    exec .hiveZeroisationDone s = .next s.zeroisationDone.debugDrain.actOnErrors ∧
    (s.get F.rosterStatusDrain = 3 → s.keeperOn 8 = false → s.bus.dbgWait = [] →
      ∃ t, exec .hiveZeroisationDone s = .next t ∧ t.get F.rosterStatusDrain = 3 ∧ t.get F.hiveZeroBusy = 0 ∧ t.hive.mem = []) ∧
    (s.get F.rosterStatusDrain = 3 → s.keeperOn 8 = true →
      (s.job.after = .endJob ∨ s.job.after = .nothing ∧ s.jobState = jsIdle →
        ∃ t, exec .hiveZeroisationDone s = .next t ∧ t.get F.rosterStatusDrain = 4 ∧ t.chip.ledOk = false ∧
          t.chip.ledRemove = true ∧ t.jobState = jsIdle ∧ t.get F.hiveZeroBusy = 0 ∧ t.get F.clkStateState = 3 ∧
          t.hive.mem = [] ∧
          (s.job.after = .endJob → t.get (F.acctJobsEnded (s.get F.jobOwnerPort)) =
            (s.get (F.acctJobsEnded (s.get F.jobOwnerPort)) + 1) % 65536)) ∧
      (s.job.after = .toFaulted →
        ∃ t, exec .hiveZeroisationDone s = .next t ∧ t.jobState = jsZeroising ∧ t.get F.jobStatusEndReason = 6 ∧
          t.get F.hiveZeroBusy = 1 ∧ t.job.after = .endJob ∧ t.hive.mem = [])) ∧
    (s.get F.rosterStatusDrain ≠ 3 → s.bus.dbgWait = [] → exec .hiveZeroisationDone s = .next s.zeroisationDone) ∧
    (s.get F.rosterStatusDrain ≠ 3 → ∃ t, t = s.zeroisationDone ∧ t.hive.mem = [] ∧ t.hive.layout = s.layoutNow ∧ t.hive.heads = [] ∧
      t.hive.waiting = [] ∧ (∀ q, q < 5 → t.word (R.hivePoolFree q) = s.word (R.hivePoolCnt q)) ∧
      t.get F.hiveZeroBusy = 0 ∧ t.get F.rasStatusPartBusy = 0 ∧ t.word R.hiveZeroCnt = s.word R.hiveZeroCnt + 1 ∧
      (s.job.after = .nothing → t.jobState = s.jobState) ∧ (s.job.after = .toFaulted → t.jobState = jsFaulted) ∧
      (s.job.after = .endJob → t.jobState = jsIdle ∧ t.get F.jobOwnerValid = 0 ∧ t.job = Job.reset ∧
        bit (t.word R.jobEvt) evDone = true ∧ t.get F.secZeroClean = 1 ∧
        t.get (F.acctJobsEnded (s.get F.jobOwnerPort)) =
          (s.get (F.acctJobsEnded (s.get F.jobOwnerPort)) + 1) % 65536 ∧
        ∀ n, (t.link n).keys.tx = none ∧ (t.link n).keys.txNext = none ∧ (t.link n).keys.rx = []))

/-! ### The roster -/

/-- R239: at a member a roster control message of any operation that fails its checks is discarded and counted as a bad
record. R425: a package that is in no roster acts on JOIN_ACK and ROSTER_XFER alone, where the checks hold in the same way,
and discards every other such packet and counts it in BOOT_ISLAND_DROP_CNT, whatever the checks would say. All leave the
receive buffer. -/
def Obligations.BadRosterMessagesAreDropped : Prop :=
  ∀ (s : State) (n k op : Nat) (i : Instr) (p : RxPkt), s.hasLink n = true → s.atWork = true → s.errs = [] →
    (i, op) ∈ [(Instr.revStart n, opRevStart), (.revVote n, opRevVote), (.revCommit n, opRevCommit), (.revAbort n, opRevAbort),
      (.loss n, opLoss), (.leave n, opLeave), (.joinReq n, opJoinReq), (.joinAck n, opJoinAck), (.rosterXfer n, opXfer)] →
    s.rosterHead n op = some (k, p) →
    ((s.member = true ∨ op = opJoinAck ∨ op = opXfer) → p.pab = false → s.rosterMsgOk op p = false →
      exec i s = .next ((s.rxRemove n 0 k).inc R.rosterRecErrCnt 1)) ∧
    (s.member = false → op ≠ opJoinAck → op ≠ opXfer → exec i s = .next ((s.rxRemove n 0 k).inc R.bootIslandDropCnt 1))

/-- R240: REV_START of the next epoch begins a revision: its snapshot is due at the end of step sw, or it is late; that one
which still runs here is abandoned, and that one of a later epoch waits for the boundary that brings this package there, are
the model's readings (log entry 108). REV_ABORT of the running revision abandons it. REV_VOTE reaches the leader. R244: a
REV_COMMIT with the digest that the member computed stages the roster for step sa; any other is counted as late. -/
def Obligations.RevisionRunsFromStartToCommit : Prop :=
  (∀ (s : State) (n k : Nat) (p : RxPkt), s.hasLink n = true → s.atWork = true → s.errs = [] → s.member = true →
    p.pab = false →
    (s.rosterHead n opRevStart = some (k, p) → s.rosterMsgOk opRevStart p = true →
      W8.repoch (p.hdr 0) = next16 (s.get F.rosterEpochActive) → s.stepOver (W8.rarg0 (p.hdr 0)) = false →
      ∃ t, exec (.revStart n) s = .next t ∧ t.get F.rosterStatusPhase = 2 ∧ t.swarm.keeper = [] ∧ t.hive = s.hive ∧
        t.roster.rev = some ⟨W8.rarg0 (p.hdr 0), W8.repoch (p.hdr 0), none, false, 0, 0, none, false, [], []⟩) ∧
    (s.rosterHead n opRevStart = some (k, p) → s.rosterMsgOk opRevStart p = true → s.roster.rev = none →
      W8.repoch (p.hdr 0) = next16 (s.get F.rosterEpochActive) → s.stepOver (W8.rarg0 (p.hdr 0)) = true →
      exec (.revStart n) s =
        .next ((s.rxRemove n 0 k).beginRev (W8.rarg0 (p.hdr 0)) (W8.repoch (p.hdr 0)) true).revContribute.actOnErrors) ∧
    (s.rosterHead n opRevStart = some (k, p) → s.rosterMsgOk opRevStart p = true →
      after 16 (W8.repoch (p.hdr 0)) (next16 (s.get F.rosterEpochActive)) = true →
      exec (.revStart n) s = .next ((s.rxRemove n 0 k).updRoster (fun r =>
        { r with startHeld := some (W8.rarg0 (p.hdr 0), W8.repoch (p.hdr 0)) }))) ∧
    ∀ r, s.roster.rev = some r → r.epoch = W8.repoch (p.hdr 0) →
      (s.rosterHead n opRevAbort = some (k, p) → s.rosterMsgOk opRevAbort p = true →
        ∃ t, exec (.revAbort n) s = .next t ∧ t.roster.rev = none ∧ t.get F.rosterStatusPhase = 1 ∧
          t.word R.rosterAbortCnt = s.word R.rosterAbortCnt + 1 ∧ t.hive = s.hive) ∧
      (s.rosterHead n opRevVote = some (k, p) → s.rosterMsgOk opRevVote p = true → s.isLeader = true →
        r.votes.any (fun w => w.1 == W8.tsrc (p.hdr 0)) = false →
        ∃ t, exec (.revVote n) s = .next t ∧ t.hive = s.hive ∧ t.regs = s.regs ∧
          t.roster = { s.roster with rev := some { r with
            votes := r.votes ++ [(W8.tsrc (p.hdr 0), W8.rarg0 (p.hdr 0) == 0, (p.hdr 0).w6.toNat)] } })) ∧
  (∀ (s : State) (n k : Nat) (p : RxPkt), s.hasLink n = true → s.atWork = true → s.errs = [] → s.member = true →
    p.pab = false → s.rosterHead n opRevCommit = some (k, p) → s.rosterMsgOk opRevCommit p = true →
    s.ueIn (rosterBase (1 - s.activeCopy)) 128 = false → hdrOk s.modelLayers (s.rosterHdr (1 - s.activeCopy)) = true →
    (∀ r, s.roster.rev = some r → r.digest = some (p.hdr 0).w6.toNat → r.epoch = W8.repoch (p.hdr 0) →
      after 16 (W8.repoch (p.hdr 0)) (s.get F.rosterEpochActive) = true →
      ∃ t, exec (.revCommit n) s = .next t ∧ t.get F.rosterEpochStaged = W8.repoch (p.hdr 0) ∧
        t.word R.rosterActStep = (p.hdr 0).w3 ∧ t.get F.rosterStatusPhase = 5 ∧ t.word R.rosterDigest = (p.hdr 0).w6 ∧
        t.roster.rev = none ∧ t.step.cnt.stagedFlag = true ∧ t.get F.rosterEpochActive = s.get F.rosterEpochActive ∧
        t.activeCopy = s.activeCopy) ∧
    ((s.roster.rev = none ∨ ∃ r, s.roster.rev = some r ∧ r.digest ≠ some (p.hdr 0).w6.toNat) →
      exec (.revCommit n) s = .next ((s.rxRemove n 0 k).inc R.rosterLateCnt 1)))

/-- R250, R254: LEAVE schedules the departure of a known member at its effective step; JOIN_REQ is held for the leader's
next boundary; a JOIN_ACK of another package records the joiner. R429, R249: the joiner records the effective step of its
JOIN_ACK, and before its first Recipe awaits that step; it stores the parts of the roster in ascending offset. -/
def Obligations.MembershipAndJoiningAreRecorded : Prop :=
  (∀ (s : State) (n k : Nat) (p : RxPkt), s.hasLink n = true → s.atWork = true → s.errs = [] → s.member = true →
    p.pab = false →
    (s.rosterHead n opLeave = some (k, p) → s.rosterMsgOk opLeave p = true → s.members.contains (W8.rpkg (p.hdr 0)) = true →
      W8.rpkg (p.hdr 0) ≠ s.self →
      s.roster.departs.any (fun d => d.pkg == W8.rpkg (p.hdr 0) && d.step == W8.rarg0 (p.hdr 0)) = false →
      ∃ t, exec (.leave n) s = .next t ∧ t.hive = s.hive ∧
        t.roster = { s.roster with departs := s.roster.departs ++ [⟨W8.rpkg (p.hdr 0), W8.rarg0 (p.hdr 0), false⟩] } ∧
        t.word R.rosterLateCnt =
          (if after 32 (W8.rarg0 (p.hdr 0)) s.curSeq then s.word R.rosterLateCnt else s.word R.rosterLateCnt + 1)) ∧
    (s.rosterHead n opJoinReq = some (k, p) → s.rosterMsgOk opJoinReq p = true →
      s.members.contains (W8.rpkg (p.hdr 0)) = false →
      ∃ t, exec (.joinReq n) s = .next t ∧ t.hive = s.hive ∧ t.regs = s.regs ∧
        t.roster = { s.roster with reqs := insertAsc (W8.rpkg (p.hdr 0)) s.roster.reqs }) ∧
    (s.rosterHead n opJoinAck = some (k, p) → s.rosterMsgOk opJoinAck p = true → W8.rpkg (p.hdr 0) ≠ s.self →
      s.members.contains (W8.rpkg (p.hdr 0)) = false →
      s.roster.joiners.any (fun j => j.pkg == W8.rpkg (p.hdr 0)) = false →
      ∃ t, exec (.joinAck n) s = .next t ∧ t.hive = s.hive ∧ t.regs = s.regs ∧ t.roster = { s.roster with
        joiners := s.roster.joiners ++ [⟨W8.rpkg (p.hdr 0), W8.rarg0 (p.hdr 0), W8.repoch (p.hdr 0)⟩] })) ∧
  (∀ (s : State) (n k : Nat) (p : RxPkt), s.hasLink n = true → s.atWork = true → s.errs = [] → s.member = false →
    p.pab = false →
    (s.rosterHead n opJoinAck = some (k, p) → s.rosterMsgOk opJoinAck p = true → W8.rpkg (p.hdr 0) = s.self →
      s.roster.asking = true → s.job.anyAccepted = false →
      ∃ t, exec (.joinAck n) s = .next t ∧ t.word R.bootJoinSeq = (p.hdr 0).w3 ∧ t.word R.stepWaitSeq = (p.hdr 0).w3 ∧
        t.roster.ackStep = some (W8.rarg0 (p.hdr 0)) ∧ t.roster.ackEpoch = W8.repoch (p.hdr 0) ∧ t.roster.asking = false ∧
        t.job.reads = s.job.reads ∧
        t.hive = s.hive) ∧
    (s.rosterHead n opXfer = some (k, p) → s.rosterMsgOk opXfer p = true → s.roster.ackStep ≠ none →
      W8.repoch (p.hdr 0) = s.roster.ackEpoch → W8.rarg0 (p.hdr 0) = s.roster.got →
      s.roster.got + (p.bytes.drop 32).length ≤ 0x4000000 →
      ∃ t, exec (.rosterXfer n) s = .next t ∧ t.roster.got = s.roster.got + (p.bytes.drop 32).length ∧
        t.roster.total = (p.hdr 0).w6.toNat ∧ t.regs = s.regs ∧
        (∀ j, j < (p.bytes.drop 32).length →
          t.hiveByte (rosterBase s.activeCopy + s.roster.got + j) = (p.bytes.drop 32).getD j 0) ∧
        ∀ a, (a < rosterBase s.activeCopy + s.roster.got ∨
          rosterBase s.activeCopy + s.roster.got + (p.bytes.drop 32).length ≤ a) → t.hiveByte a = s.hiveByte a))

/-- R251, R252, R250, R433: a LOSS of a known package is passed on and takes effect, once; an observer announces a member
that has been unreachable for LOSS_US; a package that reaches no member treats all of them as lost. Without traffic under
way, the lost package is excluded from now on and departs at its effective step. -/
def Obligations.LossesTakeEffect : Prop :=
  ∀ (s : State) (n k pkg : Nat) (p : RxPkt), s.hasLink n = true → s.atWork = true → s.errs = [] → s.member = true →
    (p.pab = false → s.rosterHead n opLoss = some (k, p) → s.rosterMsgOk opLoss p = true → W8.rpkg (p.hdr 0) = pkg →
      pkg ≠ s.self → s.knownPkg pkg = true →
      (s.roster.seen.contains (pkg, W8.rarg0 (p.hdr 0)) = true → exec (.loss n) s = .next (s.rxRemove n 0 k)) ∧
      (s.roster.seen.contains (pkg, W8.rarg0 (p.hdr 0)) = false →
        exec (.loss n) s = .next ((((s.rxRemove n 0 k).castRoster (s.peers.filter (fun q => q != W8.tsrc (p.hdr 0) && q != pkg))
          opLoss 0 (W8.rarg0 (p.hdr 0)) pkg)).losePkg pkg (W8.rarg0 (p.hdr 0))).actOnErrors)) ∧
    (s.cycleOver = true → s.peers.contains pkg = true → s.isLost pkg = false → s.unreachable pkg = true →
      exec (.lossDetect pkg) s = .next ((s.castRoster (s.peers.filter (fun q => q != pkg)) opLoss 0 (seqAdd s.curSeq 2)
        pkg).losePkg pkg (seqAdd s.curSeq 2)).actOnErrors) ∧
    (s.cycleOver = true → s.peers ≠ [] → s.roster.isolated = false → (∀ q ∈ s.peers, s.unreachable q = true) →
      exec .isolation s =
        .next (((s.peers.foldl State.loseLive s).updCnt (fun c => c.addLosses s.peers)).updRoster (fun r =>
          { r with isolated := true })).actOnErrors) ∧
    (∀ eff, s.step.layers = [] → s.swarm = Swarm.reset → s.bar.open_ = false → s.limbo = [] →
      (∀ m v, (s.link m).tx.q.getD v [] = []) → (∀ m v, s.rxq m v = []) → (∀ c, (s.cluster c).appendQ = []) →
      (s.losePkg pkg eff).errs = [] ∧ (s.losePkg pkg eff).roster.lost = insertAsc pkg s.roster.lost ∧
        (s.losePkg pkg eff).roster.departs = s.roster.departs ++ [⟨pkg, eff, true⟩] ∧
        (s.losePkg pkg eff).roster.seen = s.roster.seen ++ [(pkg, eff)] ∧ (s.losePkg pkg eff).roster.rev = none)

/-- R240: the revision timer's expiry re-arms it without drift, and with REV_EN at 1 makes the leader open a revision at the
next boundary; with REV_EN at 0 nothing else happens. R427: the join timer's expiry lets the request go out again at the
next boundary. That both wake the engine is the model's reading of R443 (log entry 113). R241: the computed roster gives the
digest that the member votes; that a halted Keeper holds that work is the model's reading of R496 (log entry 79). -/
def Obligations.RosterTimersAndComputation : Prop :=
  (∀ (s : State) (i : Nat), s.powered = true → s.errs = [] → s.cycleOver = true → s.member = true → s.timerOf tmRev = some i →
    i < s.timers.length → s.timerHit i = true →
    (s.isLeader = true → s.eff F.rosterCtlRevEn = 1 → s.roster.rev = none → s.get F.rosterEpochStaged = 0 →
      ∃ t, exec .rosterRevExpiry s = .next t ∧ t.roster = { s.roster with startDue := true } ∧
        t.timer i = ⟨true, (s.timer i).t0 + (s.timer i).d * unitNs (s.get (F.tmrCfgUnit i)), s.revSeconds⟩ ∧
        t.hive = s.hive ∧ (s.awake = true → t.regs = s.regs) ∧
        (s.awake = false → (s.get F.clkStateState = 1 ∨ s.keeperOn 8 = true) → t.get F.clkStateWaking = 1)) ∧
    (s.eff F.rosterCtlRevEn = 0 ∨ s.isLeader = false →
      exec .rosterRevExpiry s = .next (s.setTimer i
        ⟨true, (s.timer i).t0 + (s.timer i).d * unitNs (s.get (F.tmrCfgUnit i)), s.revSeconds⟩))) ∧
  (∀ (s : State) (i : Nat), s.powered = true → s.errs = [] → s.timerOf tmJoin = some i → s.timerHit i = true →
    s.cycleOver = true →
    exec .joinRetry s = .next (((s.startWake 4).disarm tmJoin).updRoster (fun r => { r with askDue := true })) ∧
    (s.awake = true → exec .joinRetry s =
      .next ((s.setTimer i Timer.off).updRoster (fun r => { r with askDue := true })))) ∧
  ∀ (s : State) (r : Rev) (d : SMap Nat) (ds : List (List Nat)), s.linkClocked = true → s.errs = [] → s.member = true →
    s.roster.rev = some r → r.voted = false → r.late = false → r.snap = some d → s.reducedDemand = some ds →
    (s.readRoster s.activeCopy).2 = 0 → s.keepersOn = true →
    ∃ t r', exec .rosterComputeDone s = .next t ∧ t.roster.rev = some r' ∧ r'.voted = true ∧ r'.epoch = r.epoch ∧
      r'.digest = some ((s.readRoster s.activeCopy).1.revise (revLimits r.limits) r.quota r.epoch r.lost ds).digest ∧
      t.get F.rosterStatusPhase = 4 ∧ t.activeCopy = s.activeCopy

/-! ### Power -/

/-- R440, R441, R442: entries to the sleep states, when the conditions that the rules give hold. That a halted Head Keeper,
which asks for the setpoint of E2 and E3 (R50), lets neither begin is the model's reading of R496 (log entry 79). -/
def Obligations.SleepStatesAreEntered : Prop :=
  (∀ s : State, s.clocked = true → s.errs = [] → s.cycleOver = true → s.maySleep = true → 1 ≤ s.slotGet F.clkPwrCtlDeepest →
    (s.power.gap = none ∨ s.power.plan = 1) → s.e1Ready = true →
    ∃ t, exec .e1Entry s = .next t ∧ t.get F.clkStateState = 1 ∧ t.word R.clkE1Cnt = s.word R.clkE1Cnt + 1 ∧
      s.keepsRegsBut t [R.clkState, R.clkE1Cnt] ∧
      t = { s with regs := t.regs, power := { s.power with woke := false } }) ∧
  (∀ s : State, s.clocked = true → s.errs = [] → s.cycleOver = true → s.maySleep = true → s.e2Allowed = true →
    (s.power.gap ≠ none ∧ s.power.plan = 2 ∨ s.power.gap = none ∧ s.stepping = true ∧ s.step.inProg = false) →
    s.e1Ready = true → s.roster.rev = none → s.flag F.hiveZeroBusy = false →
    (s.keeperOn 8 = false → exec .e2Entry s = .next s) ∧
    (s.keeperOn 8 = true → ∃ t, exec .e2Entry s = .next t ∧ t.get F.clkStateState = 2 ∧ t.get F.hiveStatusSelfref = 1 ∧
      t.get F.clkStateVddMv = 650 ∧ t.word R.clkE2Cnt = s.word R.clkE2Cnt + 1 ∧ t.hive = s.hive ∧ t.step = s.step)) ∧
  ∀ (s : State) (t0 : Nat), s.clocked = true → s.errs = [] → s.cycleOver = true → 2 ≤ s.get F.bootStageStage → s.get F.clkStateState ≠ 3 →
    s.flag F.clkStateWaking = false → s.jobState = jsIdle → s.power.jobIdleAt = some t0 →
    t0 + 1000000 * max 1 (s.slotGet F.clkPwrCtlE3Idle) ≤ s.chip.now → s.flag F.hiveZeroBusy = false →
    s.slotGet F.clkPwrCtlDeepest = 3 → s.member = false →
    (s.keeperOn 8 = false → exec .e3Entry s = .next s) ∧
    (s.keeperOn 8 = true → ∃ t, exec .e3Entry s = .next t ∧ t.get F.clkStateState = 3 ∧ t.get F.hiveStatusSelfref = 1 ∧
      t.get F.clkStateVddMv = 650 ∧ t.word R.clkE3Cnt = s.word R.clkE3Cnt + 1 ∧ t.hive = s.hive ∧
      (∀ a, t.sieve a = SieveSt.reset) ∧ ∀ n, n < s.nLinks → s.linkState n ≠ lsOff → t.linkState n = lsLp)

/-- R447, R445, R449: the WAKE timer starts a wake from E1 or E2; after the state's wake time the engine is in E0; a timed
wake whose tile does not come is counted, and E1 is entered again where its conditions hold. That a wake from E2, which needs
the setpoint of a running Head Keeper (R50), waits for its release is the model's reading of R496 (log entry 79). -/
def Obligations.WakesStartEndAndAreCounted : Prop :=
  (∀ s : State, s.clocked = true → s.errs = [] → s.due tmWake = true → 1 ≤ s.get F.clkStateState →
    s.get F.clkStateState ≤ 2 → s.flag F.clkStateWaking = false → s.cycleOver = true →
    (s.get F.clkStateState = 2 → s.keeperOn 8 = false → s.power.wakeHeld = none →
      ∃ t, exec .wakeTimer s = .next t ∧ t.power = { s.power with wakeHeld := some 1 } ∧ t.regs = s.regs ∧ t.hive = s.hive) ∧
    ((s.get F.clkStateState = 1 ∨ s.keeperOn 8 = true) → ∃ t, exec .wakeTimer s = .next t ∧ t.get F.clkStateWaking = 1 ∧ t.get F.clkStateLastWake = 1 ∧
      t.get F.clkStateState = s.get F.clkStateState ∧ t.power.wakeT0 = s.chip.now ∧
      t.power.wakeFrom = s.get F.clkStateState ∧ t.hive = s.hive)) ∧
  (∀ s : State, s.clocked = true → s.errs = [] → s.flag F.clkStateWaking = true →
    s.power.wakeT0 + wakeNs s.power.wakeFrom ≤ s.chip.now →
    (∀ a, (s.port a).hs = [] ∧ (s.port a).res = [] ∧ (s.port a).swm = []) → s.swarm = Swarm.reset →
    s.bus.dbgWait = [] → s.job.held = none →
    ∃ t, exec .wakeComplete s = .next t ∧ t.get F.clkStateState = 0 ∧ t.get F.clkStateWaking = 0 ∧
      t.power.timed = (if s.get F.clkStateLastWake = 1 then some s.chip.now else none) ∧
      (2 ≤ s.power.wakeFrom → t.get F.hiveStatusSelfref = 0 ∧
        t.get F.clkStateVddMv = clampNat (s.get F.clkVsetE0Mv) 650 850) ∧ t.hive = s.hive ∧ t.step = s.step) ∧
  ∀ s : State, s.clocked = true → s.errs = [] → s.maySleep = true → s.earlyDue = true → s.cycleOver = true →
    ∃ t, exec .earlyWake s = .next t ∧ t.word R.clkEarlyCnt = s.word R.clkEarlyCnt + 1 ∧ t.power.timed = none ∧
      t.power.wakeAt = none ∧ t.hive = s.hive ∧
      t.get F.clkStateState = (if s.e1Ready && decide (1 ≤ s.slotGet F.clkPwrCtlDeepest) then 1 else 0)

/-! ### Links and keys -/

/-- R278, R282: when the last of the four lanes comes up a link in LANES goes to HELLO; when one drops, HELLO and ECHO go
back to LANES, and an ACTIVE link enters RECOVER, which keeps its sequence state; no record that waits for its slot is sent
then (R33). R278: a link that has stood in LANES for
TRAIN_MS is held idle, and 1 ms later LANES starts again. R280, R281: HELLO goes out once per microsecond in HELLO, and
ECHO_REQ once per microsecond in ECHO, 16 times. -/
def Obligations.LinkTrainsUpToHello : Prop :=
  (∀ (s : State) (n : Nat) (lanes : BitVec 4), s.hasLink n = true → n < s.links.length → s.clocked = true → s.errs = [] →
    (s.linkState n = lsLanes → (s.link n).train.hold = none → lanes = 15#4 →
      ∃ t, exec (.laneChange n lanes) s = .next t ∧ t.linkState n = lsHello ∧ t.get (F.linkStatusLanesUp n) = 15 ∧
        (t.link n).train.ackSent = false ∧ (t.link n).train.ackGot = false ∧ s.onlyLink t n) ∧
    ((s.linkState n = lsHello ∨ s.linkState n = lsEcho) → lanes ≠ 15#4 →
      ∃ t, exec (.laneChange n lanes) s = .next t ∧ t.linkState n = lsLanes ∧
        t.get (F.linkStatusLanesUp n) = lanes.toNat ∧ (t.link n).train.lanesAt = s.chip.now ∧
        t.get (F.linkStatusMiswire n) = 0 ∧ (t.link n).tx.trainQ = [] ∧ s.onlyLink t n) ∧
    (s.linkState n = lsActive → lanes ≠ 15#4 →
      ∃ t, exec (.laneChange n lanes) s = .next t ∧ t.linkState n = lsRecover ∧
        t.word (R.linkCnt n lkRecover) = s.word (R.linkCnt n lkRecover) + 1 ∧ (t.link n).train.resume = true ∧
        (t.link n).train.recoverAt = s.chip.now ∧ (t.link n).tx = { (s.link n).tx with trainQ := [] } ∧
        (t.link n).rx = (s.link n).rx ∧
        (t.link n).keys = (s.link n).keys ∧ s.onlyLink t n)) ∧
  (∀ (s : State) (n : Nat), s.hasLink n = true → n < s.links.length → s.linkClocked = true → s.errs = [] →
    s.linkState n = lsLanes → s.cycleOver = true →
    ((s.link n).train.hold = none → (s.link n).train.lanesAt + 1000000 * s.slotGet (F.linkTmo2TrainMs n) ≤ s.chip.now →
      exec (.linkTrainTimeout n) s = .next (s.updTrain n (fun x => { x with idleReq := true, hold := some s.chip.now }))) ∧
    ∀ t0, (s.link n).train.hold = some t0 → t0 + 1000000 ≤ s.chip.now →
      ∃ t, exec (.linkIdleHoldEnd n) s = .next t ∧ (t.link n).train.idleReq = false ∧ (t.link n).train.hold = none ∧
        (t.link n).train.lanesAt = s.chip.now ∧ t.linkState n = (if s.lanesUp n then lsHello else lsLanes) ∧
        s.onlyLink t n) ∧
  (∀ (s : State) (n cyc : Nat), s.hasLink n = true → n < s.links.length → s.linkClocked = true → s.errs = [] →
    s.cycleOver = true →
    (s.linkState n = lsHello → (s.link n).train.helloAt + 1000 ≤ s.chip.now →
      ∃ t, exec (.linkHelloTimer n) s = .next t ∧ (t.link n).tx.trainQ = (s.link n).tx.trainQ ++ [s.trainRec n 1] ∧
        (t.link n).train.helloAt = s.chip.now ∧ t.regs = s.regs ∧ s.onlyLink t n) ∧
    (s.linkState n = lsEcho → 16 ≤ (s.link n).train.echoSent → exec (.linkEchoTimer n cyc) s = .next s) ∧
    (s.linkState n = lsEcho → (s.link n).train.echoSent < 16 → (s.link n).train.echoAt + 1000 ≤ s.chip.now →
      ∃ t, exec (.linkEchoTimer n cyc) s = .next t ∧ (t.link n).tx.trainQ = (s.link n).tx.trainQ ++ [s.trainRec n 3] ∧
        (t.link n).train.echoAt = s.chip.now ∧ (t.link n).train.echoSent = (s.link n).train.echoSent + 1 ∧
        t.regs = s.regs ∧ s.onlyLink t n))

/-- R280, in training and in the training of a link in RECOVER: a HELLO of the expected peer is answered with HELLO_ACK and its
sender is recorded in LINK_PEER; one of another peer marks a miswire, and a HELLO_ACK that still waits for its slot is not sent. The
HELLO_ACK has been sent when its flit slot is granted; with under four lanes up a slot sends nothing (R33). R279: a training record
that fails its check is discarded and counted. R280, R268, R271: with HELLO_ACK sent, the peer's HELLO_ACK of a fresh training leads
to ECHO: the sequence state starts afresh, with the credits that the peer advertised. R282, R273: where both sides resume, the link
is ACTIVE at once: SEQ, credits, packets, X and keys stay, the flits before the peer's T5 are freed, and those from T5 + 1 on are sent
again. R282, R283: where one side alone resumes, the link is DEAD at once and trains afresh from LANES. -/
def Obligations.HelloLeadsToEcho : Prop :=
  (∀ (s : State) (n : Nat) (r : W8), s.hasLink n = true → n < s.links.length → s.clocked = true → s.awake = true →
    s.errs = [] → s.phase n = lsHello → s.jobLive = false →
    (r.ok = true → s.peerOk n r = true → s.flag (F.linkStatusMiswire n) = false →
      ∃ t, exec (.hello n r) s = .next t ∧ (t.link n).tx.trainQ = (s.link n).tx.trainQ ++ [s.trainRec n 2] ∧
        (t.link n).train.ackSent = (s.link n).train.ackSent ∧ t.linkState n = s.linkState n ∧
        t.get (F.linkPeerPeerId n) = fld r.w0 11 0 ∧
        t.get (F.linkPeerPeerLink n) = fld r.w0 27 22 ∧ t.flag (F.linkPeerValid n) = true ∧ s.onlyLink t n) ∧
    (r.ok = true → s.peerOk n r = false →
      ∃ t, exec (.hello n r) s = .next t ∧ t.get (F.linkStatusMiswire n) = 1 ∧ t.linkState n = s.linkState n ∧
        (t.link n).tx = { (s.link n).tx with
          trainQ := (s.link n).tx.trainQ.filter (fun q => fld q.w0 31 28 != 2) } ∧ s.onlyLink t n) ∧
    (r.ok = false → exec (.hello n r) s = .next ((s.noteRx n).incLink n lkHdrErr 1))) ∧
  (∀ (s : State) (n cyc : Nat) (r : W8) (q : List W8), s.hasLink n = true → n < s.links.length → s.linkClocked = true →
    s.errs = [] → s.phase n = lsHello → (s.bar.open_ = true → s.bar.arrived = true) →
    (s.lanesUp n = true → (s.link n).tx.trainQ = r :: q → fld r.w0 31 28 = 2 → (s.link n).train.ackGot = false →
      ∃ t, exec (.flitSlotGrant n cyc) s = .next t ∧ (t.link n).train.ackSent = true ∧ (t.link n).tx.trainQ = q ∧
        t.linkState n = s.linkState n ∧ t.hive = s.hive) ∧
    (s.lanesUp n = false → (s.link n).train.ackGot = false →
      ∃ t, exec (.flitSlotGrant n cyc) s = .next t ∧ t.outs = s.outs ∧ (t.link n).tx.trainQ = (s.link n).tx.trainQ ∧
        t.hive = s.hive)) ∧
  ∀ (s : State) (n : Nat) (r : W8), s.hasLink n = true → n < s.links.length → s.clocked = true → s.awake = true →
    s.errs = [] → r.ok = true → s.peerOk n r = true → s.flag (F.linkStatusMiswire n) = false →
    (s.link n).train.ackSent = true →
    (s.linkState n = lsHello → s.jobLive = false → (s.link n).train.resume = false → bit r.w0 20 = false →
      ∃ t, exec (.helloAck n r) s = .next t ∧ t.linkState n = lsEcho ∧ (t.link n).tx.seq = 0 ∧ (t.link n).tx.retry = [] ∧
        (t.link n).tx.credits = [fld r.w1 7 0, fld r.w1 15 8, fld r.w1 23 16, fld r.w1 31 24] ∧ (t.link n).rx.x = 0 ∧
        (t.link n).train.echoes = [] ∧ (t.link n).train.ackGot = true ∧ s.onlyLink t n) ∧
    (s.phase n = lsHello → s.limbo = [] → (s.link n).train.resume = true → bit r.w0 20 = true →
      (s.jobLive = true → (s.link n).keys.peer = some (fld r.w0 11 0) ∧
        s.word (R.linkPeer n) = at_ 31 1 ||| at_ 30 (fld r.w0 21 21) ||| at_ 18 (fld r.w0 27 22) ||| at_ 0 (fld r.w0 11 0)) →
      ∃ t, exec (.helloAck n r) s = .next t ∧ t.linkState n = lsActive ∧ (t.link n).train.resume = false ∧
        (t.link n).tx.retry = (s.link n).tx.retry.filter (fun f => after 12 f.seq (fld r.w5 11 0 + 4095)) ∧
        (t.link n).tx.resend = ((s.link n).tx.retry.filter (fun f => after 12 f.seq (fld r.w5 11 0))).length ∧
        (t.link n).tx.seq = (s.link n).tx.seq ∧ (t.link n).tx.credits = (s.link n).tx.credits ∧
        (t.link n).tx.q = (s.link n).tx.q ∧ (t.link n).rx.x = (s.link n).rx.x ∧ (t.link n).rx.q = (s.link n).rx.q ∧
        (t.link n).rx.freed = (s.link n).rx.freed ∧ (t.link n).keys = (s.link n).keys ∧ s.onlyLink t n) ∧
    (s.phase n = lsHello → s.jobLive = false → (s.link n).train.resume ≠ bit r.w0 20 →
      (s.link n).tx.q = [[], [], [], []] → (∀ v, s.rxq n v = []) →
      ∃ t, exec (.helloAck n r) s = .next t ∧ t.linkState n = (if s.lanesUp n then lsHello else lsLanes) ∧
        t.word (R.linkCnt n lkDead) = s.word (R.linkCnt n lkDead) + 1 ∧ (t.link n).tx.seq = 0 ∧ (t.link n).tx.retry = [] ∧
        (t.link n).tx.retained = (s.link n).tx.retained ++ (s.link n).tx.flight ∧ (t.link n).rx.x = 0 ∧
        (t.link n).train.resume = false)

/-- R281: an ECHO_REQ is answered with an ECHO_RSP that repeats its T4; an ECHO_RSP is a round trip of the cycles since, and
the sixteenth of ECHO brings the link to ACTIVE with the least round trip in LINK_RTT. That a round trip above 65,535 cycles,
which RTT does not hold, counts as 65,535 is the model's choice (log entry 96). -/
def Obligations.EchoesMeasureTheLink : Prop :=
  ∀ (s : State) (n cyc : Nat) (r : W8), s.hasLink n = true → n < s.links.length → s.clocked = true → s.awake = true →
    s.errs = [] → s.linkState n = lsEcho → r.ok = true →
    (∃ t, exec (.echoReq n r cyc) s = .next t ∧ (t.link n).tx.trainQ = (s.link n).tx.trainQ ++
        [{ s.trainRec n 4 with w4 := r.w4, w6 := BitVec.ofNat 32 cyc }] ∧ t.linkState n = lsEcho ∧
        s.onlyLink t n) ∧
    ((s.link n).train.echoes.length < 15 →
      ∃ t, exec (.echoRsp n r cyc) s = .next t ∧ t.linkState n = lsEcho ∧ (t.link n).train.echoes =
        min 65535 (BitVec.ofNat 32 cyc - r.w4 - r.w6).toNat :: (s.link n).train.echoes ∧ s.onlyLink t n) ∧
    ((s.link n).train.echoes.length = 15 → s.jobLive = false → s.limbo = [] →
      ∃ t, exec (.echoRsp n r cyc) s = .next t ∧ t.linkState n = lsActive ∧ t.get (F.linkRttRtt n) =
        ((min 65535 (BitVec.ofNat 32 cyc - r.w4 - r.w6).toNat) :: (s.link n).train.echoes).foldl min 65535 ∧ s.onlyLink t n)

/-- R272, R273: in an ACTIVE link an arriving DATA flit of the expected sequence is accepted, and the expected sequence
advances; the first flit of a packet, where neither R425 nor R266 discards it (`State.firstFlitOk`), opens it in its VC's
buffer; an earlier one is a duplicate; a flit whose header fails asks for a NAK, and ends the peer's QUIET (R275). R292,
R294: on an encrypted link the body is decrypted under the receive key of the flit's generation, with its XSEQ, which then
counts on. R288, R289: the first flit of a packet for another package enters the queue of its outbound link with HOPS one
higher, and is counted there; without a route it is discarded and counted. That the relayed packet needs no free descriptor is the
model's choice (log entry 96); that the first flit after a fresh training says of which generation XSEQ counts is its reading of R294
(log entry 116). R272, R273, R299: in every state of the link a
CTRL flit's ACK frees the flits it covers, and its QUIET is shown. -/
def Obligations.ArrivingFlitsActOnTheLink : Prop :=
  (∀ (s : State) (n : Nat) (h : W4) (body : List Byte), s.hasLink n = true → n < s.links.length → s.clocked = true →
    s.awake = true → s.errs = [] →
    (W4.ok h = true → fld h.l0 31 28 = 1 → s.linkState n = lsActive → (s.link n).tx.retry = [] →
      before 12 (fld h.l0 23 12) (s.link n).rx.x = true →
      ∃ t, exec (.dataFlitRx n h body) s = .next t ∧ t.word (R.linkCnt n lkDup) = s.word (R.linkCnt n lkDup) + 1 ∧
        (t.link n).rx.x = (s.link n).rx.x ∧ (t.link n).rx.q = (s.link n).rx.q ∧ (t.link n).rx.lastRx = s.chip.now ∧
        s.onlyLink t n) ∧
    (W4.ok h = true → fld h.l0 31 28 = 1 → s.linkState n = lsActive → (s.link n).tx.retry = [] →
      fld h.l0 23 12 = (s.link n).rx.x → s.encOn n = false → fld h.l2 31 20 = s.cmid → bit h.l0 25 = true →
      bit h.l0 24 = false → s.rxq n (fld h.l0 27 26) = [] → fld h.l0 27 26 < (s.link n).rx.q.length →
      s.firstFlitOk (fld h.l0 27 26) (fld h.l2 11 8) (bit h.l2 17) ((padTo 240 body).take (fld h.l2 7 0)) = true →
      ∃ t p, exec (.dataFlitRx n h body) s = .next t ∧ (t.link n).rx.x = ((s.link n).rx.x + 1) % 4096 ∧
        t.word (R.linkCnt n lkRx) = s.word (R.linkCnt n lkRx) + 1 ∧ t.tel.flitRx = s.tel.flitRx + 1 ∧
        t.rxq n (fld h.l0 27 26) = [p] ∧ p.bytes = (padTo 240 body).take (fld h.l2 7 0) ∧ p.whole = false ∧
        (fld h.l0 27 26 ≠ 0 → p.places = 1)) ∧
    (∀ key x, W4.ok h = true → fld h.l0 31 28 = 1 → s.linkState n = lsActive → (s.link n).tx.retry = [] →
      fld h.l0 23 12 = (s.link n).rx.x → s.encOn n = true →
      (s.link n).keys.rx.find? (fun k => k.kg == fld h.l2 14 14) = some key → fld h.l2 31 20 = s.cmid → bit h.l0 25 = true →
      bit h.l0 24 = false → s.rxq n (fld h.l0 27 26) = [] → fld h.l0 27 26 < (s.link n).rx.q.length →
      x = (if (s.link n).keys.rxKg = none ∨ (s.link n).keys.rxKg = some (fld h.l2 14 14) then (s.link n).keys.rxXseq else 0) →
      s.firstFlitOk (fld h.l0 27 26) (fld h.l2 11 8) (bit h.l2 17)
        ((cryptBody key (s.get (F.linkPeerPeerId n)) (s.get (F.linkPeerPeerLink n)) x (padTo 240 body)).take
          (fld h.l2 7 0)) = true →
      ∃ t p, exec (.dataFlitRx n h body) s = .next t ∧
        (t.link n).rx.x = ((s.link n).rx.x + 1) % 4096 ∧ t.rxq n (fld h.l0 27 26) = [p] ∧
        p.bytes = (cryptBody key (s.get (F.linkPeerPeerId n)) (s.get (F.linkPeerPeerLink n)) x (padTo 240 body)).take
          (fld h.l2 7 0) ∧
        (t.link n).keys = { (s.link n).keys with rxXseq := x + 1, rxKg := some (fld h.l2 14 14) }) ∧
    (∀ v, v = fld h.l0 27 26 → W4.ok h = true → fld h.l0 31 28 = 1 → s.linkState n = lsActive → (s.link n).tx.retry = [] →
      fld h.l0 23 12 = (s.link n).rx.x → s.encOn n = false → fld h.l2 31 20 ≠ s.cmid → bit h.l0 25 = true →
      bit h.l0 24 = false → s.rxq n v = [] → v < (s.link n).rx.q.length →
      (∀ o, (v < 2 ∨ fld h.l2 31 20 / 512 = s.dom) → s.relayRoute (fld h.l2 31 20) (fld h.l2 19 18) none = some o →
        o < s.links.length → v < (s.link o).tx.q.length →
        (∀ p ∈ (s.link o).tx.q.getD v [], p.relay ≠ some n ∨ p.whole = true) →
        ∃ t p, exec (.dataFlitRx n h body) s = .next t ∧ (t.link n).rx.x = ((s.link n).rx.x + 1) % 4096 ∧
          (t.link o).tx.q.getD v [] = (s.link o).tx.q.getD v [] ++ [p] ∧ p.relay = some n ∧ p.dst = fld h.l2 31 20 ∧
          p.hops = fld h.l2 19 18 + 1 ∧ p.nhdr = fld h.l2 11 8 ∧ p.mg = bit h.l2 17 ∧ p.whole = false ∧ p.held = 1 ∧
          p.bytes = (padTo 240 body).take (fld h.l2 7 0) ∧
          t.word (R.linkCnt o lkRelay) = s.word (R.linkCnt o lkRelay) + 1) ∧
      ((2 ≤ v ∧ fld h.l2 31 20 / 512 ≠ s.dom) ∨ s.relayRoute (fld h.l2 31 20) (fld h.l2 19 18) none = none →
        ∃ t, exec (.dataFlitRx n h body) s = .next t ∧ (t.link n).rx.x = ((s.link n).rx.x + 1) % 4096 ∧
          t.word (R.linkCnt n lkRelayDrop) = s.word (R.linkCnt n lkRelayDrop) + 1 ∧
          (∀ m, (t.link m).tx.q = (s.link m).tx.q) ∧
          (t.link n).rx.freed = updAt (s.link n).rx.freed v (fun c => (c + 1) % 256) ∧ s.onlyLink t n)) ∧
    (s.linkState n = lsActive → (s.link n).rx.nakAt = none →
      ∃ t, exec (.badFlitRx n) s = .next t ∧ t.word (R.linkCnt n lkHdrErr) = s.word (R.linkCnt n lkHdrErr) + 1 ∧
        (t.link n).tx.nakDue = true ∧ t.get (F.linkStatusQuietPeer n) = 0 ∧ (t.link n).rx =
          (if s.flag (F.linkStatusQuietPeer n) then { (s.link n).rx with lastRx := s.chip.now } else (s.link n).rx) ∧
        s.onlyLink t n) ∧
    (W4.ok h = false → exec (.dataFlitRx n h body) s = exec (.badFlitRx n) s ∧
      exec (.ctrlFlitRx n h) s = exec (.badFlitRx n) s)) ∧
  (∀ (s : State) (n : Nat) (h : W4), s.hasLink n = true → n < s.links.length → s.clocked = true → s.awake = true →
    s.errs = [] → W4.ok h = true → fld h.l0 31 28 = 2 → bit h.l2 15 = false → s.limbo = [] →
    ∃ t, exec (.ctrlFlitRx n h) s = .next t ∧
      (t.link n).tx.retry = (s.link n).tx.retry.filter (fun r => after 12 r.seq (fld h.l0 11 0)) ∧
      t.get (F.linkStatusQuietPeer n) = b2n (bit h.l2 12) ∧ (t.link n).keys.peerKv = bit h.l2 13 ∧
      (t.link n).keys.peerKg = fld h.l2 14 14 ∧ (t.link n).rx.lastRx = s.chip.now ∧
      (t.link n).tx.lastCr = [fld h.l1 7 0, fld h.l1 15 8, fld h.l1 23 16, fld h.l1 31 24] ∧
      (t.link n).rx.x = (s.link n).rx.x ∧ t = { s with regs := t.regs, links := t.links } ∧
      (∀ m, m ≠ n → t.link m = s.link m) ∧
      ∀ o, (regHome o < 0x60000 + 0x400 * n ∨ 0x60000 + 0x400 * (n + 1) ≤ regHome o) → regHome o ≠ R.secKey →
        regHome o ≠ R.secZero → t.word o = s.word o)

/-- R296: a slot of an ACTIVE link with nothing to resend goes to the VC that the arbiter picks, whose next flit leaves: as
it is, or on an encrypted link encrypted under the transmit key with the link's XSEQ, which counts on (R292). A payload is read out of
the Hive, and with the packet's last flit its reference and its header slots are released (R178). A RELEASE takes REM from the cycle of
its slot (R359). A flit of a relayed packet frees its place of the inbound link (R269). A written WAITLIM is in force from this slot on
(R302). R273: in a go-back episode the next unacknowledged flit leaves instead, with its fields and its body and the current ACK and
credits; one that carries a RELEASE is counted (R361). R263, R272, R275, R295: a slot that no VC asks for carries a CTRL flit where one is called for, which advertises the newest
receive key, and a NAK in it is counted. -/
def Obligations.SlotSendsThePickedFlit : Prop :=
  ∀ (s : State) (n cyc : Nat), s.hasLink n = true → n < s.links.length → s.linkClocked = true → s.errs = [] → s.upset = [] →
    s.linkState n = lsActive → (s.bar.open_ = true → s.bar.arrived = true) →
    (∀ (v i : Nat) (forced : Bool) (p q : TxPkt) (u : State) (key : Key), (s.link n).tx.resend = 0 →
      (s.settleSlot n).pickVc n = some (v, forced) → (s.link n).tx.current v = some i →
      ((s.link n).tx.q.getD v [])[i]? = some p → q = p.stamp cyc →
      (∀ hd len, p.pay = some (hd, len) → s.hive.upsets = [] ∧ s.handleOk hd = true) →
      ((s.flitOf q).2 = true → s.limbo = []) → (s.encOn n = true → (s.link n).keys.tx = some key) →
      u = (match p.pay with
        | some (hd, _) => s.release hd (n / 2) p.slots.head?
        | none => s) →
      ∃ t h b, exec (.flitSlotGrant n cyc) s = .next t ∧ t.outs = Out.flit n h b :: s.outs ∧
        b = (if s.encOn n then cryptBody key s.cmid n (s.link n).keys.xseq (padTo 240 (s.flitOf q).1)
          else padTo 240 (s.flitOf q).1) ∧
        (∀ f, p.fire = some f → (W8.ofBytes q.bytes).w2 = BitVec.ofNat 32 (f - cyc) ∧ (W8.ofBytes q.bytes).ok = true) ∧
        (p.fire = none → q = p) ∧
        t.hive = (if (s.flitOf q).2 then (u.freeSlots p.slots).hive else s.hive) ∧
        (t.link n).tx.seq = ((s.link n).tx.seq + 1) % 4096 ∧ (t.link n).tx.retry.length = (s.link n).tx.retry.length + 1 ∧
        t.word (R.linkCnt n lkTx) = s.word (R.linkCnt n lkTx) + 1 ∧ W4.ok h = true ∧ fld h.l0 31 28 = 1 ∧
        fld h.l0 27 26 = v % 4 ∧ bit h.l0 25 = (p.sent == 0) ∧ bit h.l0 24 = (s.flitOf q).2 ∧
        fld h.l0 23 12 = (s.link n).tx.seq % 4096 ∧ fld h.l2 31 20 = p.dst % 4096 ∧
        fld h.l2 14 14 = (if s.encOn n then key.kg % 2 else 0) ∧ fld h.l2 7 0 = (s.flitOf q).1.length % 256 ∧
        (t.link n).keys = (if s.encOn n then { (s.link n).keys with xseq := (s.link n).keys.xseq + 1 } else (s.link n).keys) ∧
        (t.link n).tx.credits = updAt (s.link n).tx.credits v (· - 1) ∧ t.tel.flitTx = s.tel.flitTx + 1 ∧
        ∀ m, p.relay = some m → 0 < p.held → m < s.links.length →
          (t.link m).rx.freed = updAt (s.link m).rx.freed v (fun c => (c + 1) % 256)) ∧
    (∀ (r : RetryFlit), 0 < (s.link n).tx.resend →
      (s.link n).tx.retry[(s.link n).tx.retry.length - (s.link n).tx.resend]? = some r →
      ∃ t h, exec (.flitSlotGrant n cyc) s = .next t ∧ t.outs = Out.flit n h r.body :: s.outs ∧ W4.ok h = true ∧
        fld h.l0 31 28 = fld r.h.l0 31 28 ∧ fld h.l0 27 26 = fld r.h.l0 27 26 ∧ bit h.l0 25 = bit r.h.l0 25 ∧
        bit h.l0 24 = bit r.h.l0 24 ∧ fld h.l0 23 12 = fld r.h.l0 23 12 ∧ fld h.l2 31 20 = fld r.h.l2 31 20 ∧
        fld h.l2 19 18 = fld r.h.l2 19 18 ∧ bit h.l2 17 = bit r.h.l2 17 ∧ bit h.l2 16 = bit r.h.l2 16 ∧
        fld h.l2 14 14 = fld r.h.l2 14 14 ∧ fld h.l2 11 8 = fld r.h.l2 11 8 ∧ fld h.l2 7 0 = fld r.h.l2 7 0 ∧
        fld h.l0 11 0 = ((s.link n).rx.x + 4095) % 4096 ∧ bit h.l2 15 = (s.link n).tx.nakDue ∧
        (∀ v, v < 4 → fld h.l1 (8 * v + 7) (8 * v) = (s.link n).rx.freed.getD v 0 % 256) ∧
        t.word R.swarmBarRetryCnt = s.word R.swarmBarRetryCnt + BitVec.ofNat 32 (b2n r.rel) ∧
        (t.link n).tx.resend = (s.link n).tx.resend - 1 ∧ (t.link n).tx.retry = (s.link n).tx.retry ∧
        (t.link n).tx.q = (s.link n).tx.q ∧ (t.link n).tx.seq = (s.link n).tx.seq ∧ (t.link n).keys = (s.link n).keys ∧
        t.hive = s.hive ∧ ∀ m, m ≠ n → t.link m = s.link m) ∧
    ((s.link n).tx.resend = 0 → (s.settleSlot n).pickVc n = none →
      ((s.link n).tx.ctrlDue = true ∨ (s.link n).tx.nakDue = true ∨ (s.link n).tx.aliveDue = true →
        ∃ t h, exec (.flitSlotGrant n cyc) s = .next t ∧ t.outs = Out.flit n h (List.replicate 240 0) :: s.outs ∧
          W4.ok h = true ∧ fld h.l0 31 28 = 2 ∧ fld h.l0 11 0 = ((s.link n).rx.x + 4095) % 4096 ∧ fld h.l2 7 0 = 0 ∧
          bit h.l2 15 = (s.link n).tx.nakDue ∧ bit h.l2 13 = (s.link n).keys.rx.head?.isSome ∧
          fld h.l2 14 14 = (((s.link n).keys.rx.head?.map (·.kg)).getD 0) % 2 ∧ bit h.l2 12 = false ∧
          (∀ v, v < 4 → fld h.l1 (8 * v + 7) (8 * v) = (s.link n).rx.freed.getD v 0 % 256) ∧
          t.word (R.linkCnt n lkNak) = s.word (R.linkCnt n lkNak) + BitVec.ofNat 32 (b2n (s.link n).tx.nakDue) ∧
          (t.link n).tx.ctrlDue = false ∧ (t.link n).tx.nakDue = false ∧ (t.link n).tx.aliveDue = false ∧
          (t.link n).tx.lastCtrl = s.chip.now ∧ (t.link n).tx.seq = (s.link n).tx.seq ∧
          (t.link n).tx.retry = (s.link n).tx.retry ∧ (t.link n).tx.q = (s.link n).tx.q ∧ t.hive = s.hive ∧
          ∀ m, m ≠ n → t.link m = s.link m) ∧
      ((s.link n).tx.ctrlDue = false → (s.link n).tx.nakDue = false → (s.link n).tx.aliveDue = false →
        (s.link n).tx.trainQ = [] →
        ∃ t, exec (.flitSlotGrant n cyc) s = .next t ∧ t.outs = s.outs ∧ t.hive = s.hive ∧ (t.link n).tx.q = (s.link n).tx.q))

/-- R273, R274, R275: a retry buffer whose oldest flit has waited RETRY_US starts a go-back, and after MAXRETRY of them
without an advancing ACK the link goes to RECOVER; no valid flit for ALIVE_US brings RECOVER; a CTRL flit is called for each
microsecond. R270: a VC that has waited CREDIT_US without credit is counted. -/
def Obligations.LinkTimersAct : Prop :=
  ∀ (s : State) (n : Nat), s.hasLink n = true → n < s.links.length → s.linkClocked = true → s.errs = [] →
    s.linkState n = lsActive → s.cycleOver = true →
    ((s.link n).tx.retry ≠ [] →
      (s.link n).tx.oldestAt + 1000 * max 1 (s.slotGet (F.linkTmoRetryUs n)) ≤ s.chip.now →
      ((s.link n).tx.episodes < max 1 (s.slotGet (F.linkTmoMaxretry n)) →
        ∃ t, exec (.linkRetryTimeout n) s = .next t ∧ (t.link n).tx.resend = (s.link n).tx.retry.length ∧
          (t.link n).tx.episodes = (s.link n).tx.episodes + 1 ∧ t.linkState n = lsActive ∧
          t.word (R.linkCnt n lkRetryTmo) = s.word (R.linkCnt n lkRetryTmo) + 1 ∧ s.onlyLink t n) ∧
      (max 1 (s.slotGet (F.linkTmoMaxretry n)) ≤ (s.link n).tx.episodes →
        ∃ t, exec (.linkRetryTimeout n) s = .next t ∧ t.linkState n = lsRecover ∧ (t.link n).train.resume = true ∧
          t.word (R.linkCnt n lkRecover) = s.word (R.linkCnt n lkRecover) + 1 ∧ (t.link n).tx = (s.link n).tx ∧
          s.onlyLink t n)) ∧
    (s.flag (F.linkStatusQuietPeer n) = false →
      (s.link n).rx.lastRx + 1000 * max 1 (s.slotGet (F.linkTmoAliveUs n)) ≤ s.chip.now →
      ∃ t, exec (.linkAliveTimeout n) s = .next t ∧ t.linkState n = lsRecover ∧ (t.link n).train.resume = true ∧
        t.word (R.linkCnt n lkRecover) = s.word (R.linkCnt n lkRecover) + 1 ∧ (t.link n).tx = (s.link n).tx ∧
        s.onlyLink t n) ∧
    ((s.link n).tx.quiet = false → (s.link n).tx.lastCtrl + 1000 ≤ s.chip.now →
      exec (.linkKeepalive n) s = .next (s.updTx n (fun t => { t with aliveDue := true }))) ∧
    ∀ v t0, (s.link n).tx.hasFlit v = true → (s.link n).tx.credits.getD v 0 = 0 → v < (s.link n).tx.stallAt.length →
      (s.link n).tx.stallAt.getD v none = some t0 → t0 + 1000 * max 1 (s.slotGet (F.linkTmoCreditUs n)) ≤ s.chip.now →
      ∃ t, exec (.linkCreditStall n v) s = .next t ∧ t.word (R.linkCnt n lkStall) = s.word (R.linkCnt n lkStall) + 1 ∧
        (t.link n).tx.stallAt.getD v none = some s.chip.now ∧ s.keepsRegsBut t [R.linkCnt n lkStall] ∧ s.onlyLink t n

/-- R283, R278: DEAD_MS in RECOVER kills the link, which starts again at LANES with fresh sequence state. R284: the peer's
RESYNC ends the wait for it. A retained packet whose header bytes the peer has is released; one of VC2 or VC3 goes again as a stub of
its headers, with POISON and length 0 (R216, R210), one of VC0 or VC1 that arrived here whole goes again whole. -/
def Obligations.DeadLinksStartAgain : Prop :=
  (∀ (s : State) (n : Nat), s.hasLink n = true → n < s.links.length → s.linkClocked = true → s.errs = [] →
    s.cycleOver = true →
    s.linkState n = lsRecover → (s.link n).train.recoverAt + 1000000 * max 1 (s.slotGet (F.linkTmo2DeadMs n)) ≤ s.chip.now →
    (s.link n).tx.q = [[], [], [], []] → (∀ v, s.rxq n v = []) → s.flag (F.linkPeerValid n) = false →
    s.lanesUp n = false →
    ∃ t, exec (.linkDeadTimeout n) s = .next t ∧ t.linkState n = lsLanes ∧
      t.word (R.linkCnt n lkDead) = s.word (R.linkCnt n lkDead) + 1 ∧ (t.link n).tx.seq = 0 ∧ (t.link n).tx.retry = [] ∧
      (t.link n).tx.retained = (s.link n).tx.retained ++ (s.link n).tx.flight ∧ (t.link n).rx.x = 0 ∧
      (t.link n).train.resume = false) ∧
  ∀ (s : State) (n d : Nat) (p : RxPkt) (q : List RxPkt), s.hasLink n = true → n < s.links.length → d < s.links.length →
    s.linkClocked = true → s.errs = [] → s.rxq n 0 = p :: q → p.mg = true → p.whole = true →
    d = fld (wordAt p.bytes 0) 21 16 → s.get (F.linkPeerPeerId d) = fld (wordAt p.bytes 1) 11 0 →
    s.get (F.linkPeerPeerLink d) = fld (wordAt p.bytes 0) 27 22 →
    exec (.resync n) s = .next (((s.link d).tx.retained.foldl (fun t r => t.resyncOne d (fld (wordAt p.bytes 0) 11 0) r)
      (((s.rxRemove n 0 0).updTx d (fun t => { t with retained := [] })).put (F.linkStatusResyncWait d) 0))).actOnErrors ∧
    ((s.link d).tx.retained = [] →
      ∃ t, exec (.resync n) s = .next t ∧ t.get (F.linkStatusResyncWait d) = 0 ∧ t.rxq n 0 = q) ∧
    ∀ (r : TxPkt), (s.link d).tx.retained = [r] →
      (r.hdrsBefore (fld (wordAt p.bytes 0) 11 0) = true ∨ (r.vc < 2 ∧ r.whole = false) →
        ∃ t, exec (.resync n) s = .next t ∧ t.get (F.linkStatusResyncWait d) = 0 ∧ (t.link d).tx.retained = [] ∧
          (∀ m, (t.link m).tx.q = (s.link m).tx.q) ∧ t.limbo = s.limbo) ∧
      ∀ (k : TxPkt) (o : Nat), r.hdrsBefore (fld (wordAt p.bytes 0) 11 0) = false → (2 ≤ r.vc ∨ r.whole = true) →
        k = (if 2 ≤ r.vc then
            { TxPkt.own r.vc r.dst r.nhdr (stubHdrs r.nhdr r.bytes) none [] with hops := r.hops, avoid := some d }
          else { TxPkt.own r.vc r.dst r.nhdr r.bytes none [] with mg := r.mg, fire := r.fire, hops := r.hops }) →
        s.flag F.bootStageMember = true → s.pktRoute k = some o → s.vcRoom o r.vc = true → o < s.links.length →
        r.vc < (s.link o).tx.q.length →
        (∀ j, j < r.nhdr → 2 ≤ r.vc →
          W8.ofBytes (k.bytes.drop (32 * j)) = W8.withPoison (W8.ofBytes (r.bytes.drop (32 * j))) 0) ∧
        ∃ t, exec (.resync n) s = .next t ∧ t.get (F.linkStatusResyncWait d) = 0 ∧ (t.link d).tx.retained = [] ∧
          (t.link o).tx.q.getD r.vc [] = (s.link o).tx.q.getD r.vc [] ++ [k] ∧ t.limbo = s.limbo ∧ t.hive = s.hive ∧
          t.rxq n 0 = q

/-- R478: a KEY_SET for this job and peer installs its key as the newest of its direction, and is counted; a message that
fails its check, or that names a reserved operation, is discarded and counted (R477). R477: requests that have waited 10 ms
are counted, and outside S1 sent again; in S1 the start fails with code 10. -/
def Obligations.MailboxKeysAndLateRequests : Prop :=
  ((∀ (s : State) (m : List Word) (n : Nat), s.powered = true → s.errs = [] → mboxOk m = true → mboxOp m = 0x83 →
    s.jobLive = true → fld (m.getD 1 0) 31 16 = s.get F.jobIdId → n = fld (m.getD 2 0) 5 0 → n < s.nLinks →
    n < s.links.length → s.flag (F.linkPeerValid n) = true → fld (m.getD 2 0) 21 10 = s.get (F.linkPeerPeerId n) →
    s.limbo = [] →
    ∃ t k, exec (.keySet m) s = .next t ∧
      k = ⟨fld (m.getD 1 0) 31 16, fld (m.getD 1 0) 15 0, fld (m.getD 2 0) 9 9, wordsBytes ((m.drop 3).take 8)⟩ ∧
      t.word R.secKeySetCnt = s.word R.secKeySetCnt + 1 ∧
      (fld (m.getD 2 0) 8 8 = 1 → (t.link n).keys.rx.head? = some k ∧
        ((s.link n).keys.txNext = none → (t.link n).keys.tx = (s.link n).keys.tx)) ∧
      (fld (m.getD 2 0) 8 8 = 0 → ((t.link n).keys.txNext = some k ∨ (t.link n).keys.tx = some k) ∧
        (t.link n).keys.rx = (s.link n).keys.rx)) ∧
  ∀ (s : State) (m : List Word), s.powered = true → s.errs = [] →
    (mboxOk m = false ∨ (mboxOp m ≠ 0x81 ∧ mboxOp m ≠ 0x82 ∧ mboxOp m ≠ 0x83)) →
    exec (.mailboxBadMessage m) s = .next (s.inc R.secMboxErrCnt 1)) ∧
  (∀ s : State, s.powered = true → s.errs = [] → s.cycleOver = true → s.mboxLate ≠ [] →
    (s.get F.bootStageStage ≠ 1 →
      ∃ t, exec .mailboxTimeout s = .next t ∧
        t.word R.secRotTmoCnt = s.word R.secRotTmoCnt + BitVec.ofNat 32 s.mboxLate.length ∧
        t.mbox = s.mbox.map (fun r => if r.sent + 10000000 ≤ s.chip.now then { r with sent := s.chip.now } else r) ∧
        t.outs = (s.mboxLate.map (fun r => Out.mbox (mboxMsg r.op r.tag r.words))).reverse ++ s.outs ∧
        s.keepsRegsBut t [R.secRotTmoCnt]) ∧
    (s.get F.bootStageStage = 1 →
      ∃ t, exec .mailboxTimeout s = .next t ∧ t.get F.bootStatusCode = 10 ∧ t.get F.bootStageStage = 0 ∧
        t.chip.failed = true ∧ t.chip.fastOn = false ∧
        t.word R.secRotTmoCnt = s.word R.secRotTmoCnt + BitVec.ofNat 32 s.mboxLate.length))

/-! ### Die ports -/

/-- R24, R27, R178: a hidden-state tile of one row for the running step goes to the Hive: its token joins the half, and its
row is in the payload that the Hive granted; the Sieve, where one is at work, goes on from there (R80). A tile that fails
its checks is discarded. R506: a CREDIT adds to what is held against the compute die. R213: a class whose head was passed over 16 times leaves next, else a CREDIT that is ready, else the class
of the highest priority that is ready. R27: the credits owed in the class that became ready first go back in one CREDIT
message. That W4 of a CREDIT sent is the
step sequence also between steps (R22), and that of a bad header its own length field says what is freed (R25), are the
model's choices (log entry 96). -/
def Obligations.TilesAndCreditsAtADiePort : Prop :=
  ∀ (s : State) (a : Nat) (h : W8) (body : List Byte), s.hasRegion a = true → a < s.ports.length → s.clocked = true →
    s.awake = true → s.errs = [] → s.upset = [] →
    (∀ (m : Staged) (g : State) (hd : Handle), m = ⟨h, W8.bodyOf h body, true, 0, 0⟩ →
      g = ((s.stage a 0 h body true).hsGap h).checkRows a m → g.errs = [] → s.hsHdrOk h = true → s.inStep = true → W8.dseq h = s.stepSeq → W8.drows h = 1 → (s.port a).hs = [] →
      (s.layerRec (W8.dlayer h)).flying = true → W8.dhalf h < (s.layerRec (W8.dlayer h)).halves.length →
      a < (s.half (W8.dlayer h) (W8.dhalf h)).ports.length → g.hsStepOk a m = true →
      (g.allocPay clHs (hsRowBytes (W8.dfmt h) (g.gateRec (W8.dlayer h)).h) 2 true (.hsPort a)).1 = some hd →
      (g.allocPay clHs (hsRowBytes (W8.dfmt h) (g.gateRec (W8.dlayer h)).h) 2 true (.hsPort a)).2.errs = [] →
      ∃ t x, exec (.hsTile a h body) s = .next (t.sieveGo a).actOnErrors ∧
        ((s.sieve a).cur = none → exec (.hsTile a h body) s = .next t) ∧
        (t.portHalf (W8.dlayer h) (W8.dhalf h) a).toks = (s.portHalf (W8.dlayer h) (W8.dhalf h) a).toks ++ [x] ∧
        x.stream = rowStream (wordAt m.body 0) ∧ x.pos = rowPos (wordAt m.body 0) ∧ x.hs = some hd ∧ x.scored = false ∧
        t.hive = ((g.allocPay clHs (hsRowBytes (W8.dfmt h) (g.gateRec (W8.dlayer h)).h) 2 true (.hsPort a)).2.writePay hd 0
          (slice m.body 16 (hsRowBytes (W8.dfmt h) (g.gateRec (W8.dlayer h)).h))).hive ∧
        (t.port a).hs = [] ∧ t.sieves = s.sieves ∧ t.links = s.links ∧ s.keepsControl t) ∧
    (s.hsHdrOk h = false → exec (.hsTile a h body) s = .next (s.dieBad a (some 0) (16 * W8.dlen h)).actOnErrors) ∧
    (∀ c, grantedClass (fld h.w2 31 28) = some c → h.ok = true → W8.msg h = 9 → W8.dlen h = 0 →
      ∃ t, exec (.creditRx a h body) s = .next t ∧ (t.port a).held = updAt (s.port a).held c (· + fld h.w2 15 0) ∧
        t.regs = s.regs ∧ t.hive = s.hive ∧ (∀ b, b ≠ a → t.port b = s.port b) ∧ t.links = s.links ∧ s.keepsControl t) ∧
    ((∀ k, s.portPick a = some k → (∃ j ∈ s.readyClasses a, 16 ≤ ((s.port a).passed.getD j []).headD 0) →
        k ∈ s.readyClasses a ∧ 16 ≤ ((s.port a).passed.getD k []).headD 0) ∧
      ((∃ j ∈ s.readyClasses a, 16 ≤ ((s.port a).passed.getD j []).headD 0) → (s.portPick a).isSome = true) ∧
      ((∀ j ∈ s.readyClasses a, ((s.port a).passed.getD j []).headD 0 < 16) →
        (s.creditReady a = true → s.portPick a = some pcCredit) ∧
        (s.creditReady a = false → ∀ k, s.portPick a = some k ↔
          k < 4 ∧ s.classReady a k = true ∧ ∀ j, j < k → s.classReady a j = false))) ∧
    ∀ cls n, s.portPick a = some pcCredit → (s.port a).creditNext = some cls → cls < 3 → n = min ((s.port a).owed.getD cls 0) 65535 → 0 < n →
      ∃ t, exec (.creditSend a cls) s = .next t ∧ (t.port a).owed = updAt (s.port a).owed cls (· - n) ∧ t.regs = s.regs ∧
        t.hive = s.hive ∧ t.links = s.links ∧ s.keepsControl t ∧ t.outs = Out.dieMsg a (dieHdr 9 0 false false false 0 0 0 0 0
          (at_ 28 (ownClassCode cls) ||| at_ 0 n) 0 s.stepSeq 0 0).sealed [] :: s.outs

/-- R23, R25, R464 to R468, R474: a message with a reserved MSG, or one that only the engine sends, is discarded, counted
and a control error of source 1 that names no stream: without a job it is only logged; in RUNNING it resets the partition,
and the job will be FAULTED; with no packet begun whose payload R300 would have to read through its handle, that is the one
error logged. The credits of a SWARM_OUT or SWARM_SIGNAL are owed in class SWM (log entry 53). -/
def Obligations.ReservedMessageIsAControlError : Prop :=
  ∀ (s : State) (a : Nat) (h : W8) (body : List Byte), s.hasRegion a = true → s.clocked = true → s.awake = true →
    s.errs = [] → W8.msg h ≠ 1 → W8.msg h ≠ 4 → W8.msg h ≠ 6 → W8.msg h ≠ 9 →
    ∃ t, exec (.dieportReservedMsg a h body) s = .next t ∧ t.errs = [] ∧
      t.word (R.rasDieportHdrCnt a) = s.word (R.rasDieportHdrCnt a) + 1 ∧
      (s.jobState = jsIdle ∨ (∀ m v, ∀ p ∈ (s.link m).tx.q.getD v [], p.sent = 0 ∨ p.pay = none) ∧
          (∀ p ∈ s.limbo, p.sent = 0 ∨ p.pay = none) →
        t.word R.rasCtrlErrCnt = s.word R.rasCtrlErrCnt + 1 ∧ t.get F.rasErrLastSrc = 1 ∧ t.get F.rasErrLastUnit = a) ∧
      (s.jobState = jsIdle → t.hive = s.hive ∧ t.step = s.step ∧ t.jobState = jsIdle ∧
        (W8.msg h ≠ 7 → W8.msg h ≠ 8 → t.ports = s.ports) ∧
        (W8.msg h = 7 ∨ W8.msg h = 8 → a < s.ports.length →
          (t.port a).owed = updAt (s.port a).owed 2 (· + creditsFor (16 * W8.dlen h)))) ∧
      (s.jobState = jsRunning → s.flag F.rasStatusPartBusy = false → t.get F.rasStatusPartBusy = 1 ∧
        t.get F.hiveZeroBusy = 1 ∧ t.step = StepSt.reset ∧ t.swarm = Swarm.reset ∧ t.bar = Barrier.reset ∧
        t.job.after = .toFaulted)

/-- R310, R311, R149, R150, R307: a result row of a tile sent on the die port comes back into the payload that the Hive
granted: the row as it is, or, in FP32, its values encoded by the Whisk in the layer's combine format, with what saturated
and was NaN counted. The copy of an own token is delivered: its leaf holds the payload, is available, its header slot holds
the result's header, and the tile's row is returned. Of the Hive nothing else changes. R208, R311: the result of a peer's copy
enters the queue of VC3 of the link that the route table chooses, as a packet of its header and that payload. R311, R319: a poisoned
row gives a header with POISON and length 0 and no payload: the leaf of an own token closes as poisoned and is counted, and a peer's
packet is its header alone. -/
def Obligations.ResultRowsReachTheirLeaf : Prop :=
  ∀ (s u : State) (a : Nat) (h : W8) (body : List Byte) (t : Tile) (r : TileRow) (d : W8),
    s.hasRegion a = true → a < s.ports.length → s.clocked = true → s.awake = true → s.errs = [] → s.upset = [] →
    s.hive.upsets = [] → h.ok = true → W8.msg h = 4 → W8.drows h = 1 → s.tagTile a h.w3 = some t → s.resOk t h = true →
    t.rows[resFirst h]? = some r → d = s.slotHdr r.slot → s.owedNothing (W8.tsrc d) = false →
    u = ((s.stage a 1 h body true).slotRead .dieRx a r.slot).2 →
    (∀ (i leaf : Nat) (p : Handle) (res : W8), r.poison = false → W8.dpoison h = false → res = s.resHdr d false →
      W8.tdest res = s.self → s.findLeaf (W8.tlayer res) (W8.thalf res) (W8.tclu res / 8) res = some (i, leaf) →
      s.leafState (W8.tlayer res) (W8.thalf res) (W8.tclu res / 8) i leaf = some .open_ →
      (∀ g : State, (s.port a).res = [] →
        s.needsConv t.layer h = false →
        (u.allocPay clRes (s.resBytes t.layer) 1 (W8.tsrc d == s.self) (.resPort a)) = (some p, g) → g.errs = [] →
        ∃ v y, exec (.expResult a h body) s = .next v ∧ (v.port a).res = [] ∧
          v.tok (W8.tlayer res) (W8.thalf res) (W8.tclu res / 8) i = some y ∧ leaf ∈ y.avail ∧
          (y.leafAt leaf).map (·.st) = some (.used p r.slot) ∧
          (∀ z ∈ v.tiles.live, z.idx = t.idx → ∀ w, z.rows[resFirst h]? = some w → w.back = true) ∧ v.links = s.links ∧
          v.hive = (((g.writePay p 0 (slice (W8.bodyOf h body) 0 (s.resRowBytes t.layer h))).writeSlot r.slot res (some p) clRes
            true (at_ 0 t.tag)).setOwner r.slot (at_ 0 t.tag) (at_ 0 (resFirst h)) 0).hive ∧ s.keepsControl v) ∧
      (∀ (w g : State) (out : List Byte × ConvEv), (s.slotRead .dieRx a r.slot).2.whiskRecRead a t.layer = (true, w) →
        (s.port a).res = [⟨h, W8.bodyOf h body, true, 0, 0⟩] → s.needsConv t.layer h = true →
        (w.allocPay clRes (s.resBytes t.layer) 1 (W8.tsrc d == s.self) (.resPort a)) = (some p, g) → g.errs = [] →
        out = encodePayload (s.whiskRec t.layer).cfmt (s.whiskRec t.layer).cblock true 0 (decodePayload 0 false 0
          (s.gateRec t.layer).h (slice (W8.bodyOf h body) 0 (s.resRowBytes t.layer h))) →
        ∃ v y, exec (.whiskResultConverted a) s = .next v ∧ (v.port a).res = [] ∧
          v.tok (W8.tlayer res) (W8.thalf res) (W8.tclu res / 8) i = some y ∧ leaf ∈ y.avail ∧
          (y.leafAt leaf).map (·.st) = some (.used p r.slot) ∧
          (∀ z ∈ v.tiles.live, z.idx = t.idx → ∀ w, z.rows[resFirst h]? = some w → w.back = true) ∧ v.links = s.links ∧
          v.word (R.whiskResSatCnt a) = s.word (R.whiskResSatCnt a) + BitVec.ofNat 32 out.2.sat ∧
          v.word (R.whiskNanCnt a) = s.word (R.whiskNanCnt a) + BitVec.ofNat 32 out.2.nan ∧
          v.hive = (((g.writePay p 0 out.1).writeSlot r.slot res (some p) clRes true (at_ 0 t.tag)).setOwner r.slot
            (at_ 0 t.tag) (at_ 0 (resFirst h)) 0).hive ∧ s.keepsControl v)) ∧
    (∀ (g : State) (p : Handle) (m : Nat) (res : W8), r.poison = false → W8.dpoison h = false → res = s.resHdr d false →
      W8.tdest res ≠ s.self → s.member = true → s.routeOf 3 (s.cmidOf (W8.tdest res)) none res.bytes = some m →
      s.vcRoom m 3 = true → m < s.links.length → 3 < (s.link m).tx.q.length → (s.port a).res = [] →
      s.needsConv t.layer h = false →
      u.allocPay clRes (s.resBytes t.layer) 1 (W8.tsrc d == s.self) (.resPort a) = (some p, g) → g.errs = [] →
      ∃ v, exec (.expResult a h body) s = .next v ∧ (v.port a).res = [] ∧
        (v.link m).tx.q.getD 3 [] = (s.link m).tx.q.getD 3 [] ++
          [TxPkt.own 3 (s.cmidOf (W8.tdest res)) 1 res.bytes (some (p, 16 * W8.tlen res)) [r.slot]] ∧
        (∀ k, k ≠ m → v.link k = s.link k) ∧ v.limbo = s.limbo ∧ v.step = s.step ∧
        (∀ z ∈ v.tiles.live, z.idx = t.idx → ∀ w, z.rows[resFirst h]? = some w → w.back = true) ∧
        v.hive = (((g.writePay p 0 (slice (W8.bodyOf h body) 0 (s.resRowBytes t.layer h))).writeSlot r.slot res (some p) clRes
          false (at_ 0 t.tag)).setOwner r.slot (at_ 0 t.tag) (at_ 0 (resFirst h)) 0).hive ∧ s.keepsControl v) ∧
    ∀ (res : W8), (r.poison = true ∨ W8.dpoison h = true) → res = s.resHdr d true → (s.port a).res = [] →
      s.needsConv t.layer h = false → W8.tpoison res = true ∧ W8.tlen res = 0 ∧
      (∀ (i leaf : Nat) (g : State), W8.tdest res = s.self →
        s.findLeaf (W8.tlayer res) (W8.thalf res) (W8.tclu res / 8) res = some (i, leaf) →
        s.leafState (W8.tlayer res) (W8.thalf res) (W8.tclu res / 8) i leaf = some .open_ →
        g = ((u.writeSlot r.slot res none clRes true (at_ 0 t.tag)).setOwner r.slot (at_ 0 t.tag) (at_ 0 (resFirst h))
          0).poisonSlot (W8.tlayer res) (W8.thalf res) (W8.tclu res / 8) i leaf → g.errs = [] →
        ∃ v y, exec (.expResult a h body) s = .next v ∧ (v.port a).res = [] ∧
          v.tok (W8.tlayer res) (W8.thalf res) (W8.tclu res / 8) i = some y ∧ y.poison = true ∧
          (y.leafAt leaf).map (·.st) = some .poisoned ∧
          v.word (R.ladlePoisonCnt (W8.tclu res / 8)) = s.word (R.ladlePoisonCnt (W8.tclu res / 8)) + 1 ∧
          (∀ z ∈ v.tiles.live, z.idx = t.idx → ∀ w, z.rows[resFirst h]? = some w → w.back = true) ∧ v.links = s.links ∧
          v.hive = (g.freeSlot r.slot).hive ∧ s.keepsControl v) ∧
      ∀ (m : Nat), W8.tdest res ≠ s.self → s.member = true →
        s.routeOf 3 (s.cmidOf (W8.tdest res)) none res.bytes = some m → s.vcRoom m 3 = true → m < s.links.length →
        3 < (s.link m).tx.q.length →
        ∃ v, exec (.expResult a h body) s = .next v ∧ (v.port a).res = [] ∧
          (v.link m).tx.q.getD 3 [] = (s.link m).tx.q.getD 3 [] ++
            [TxPkt.own 3 (s.cmidOf (W8.tdest res)) 1 res.bytes none [r.slot]] ∧
          (∀ k, k ≠ m → v.link k = s.link k) ∧ v.limbo = s.limbo ∧ v.step = s.step ∧
          (∀ z ∈ v.tiles.live, z.idx = t.idx → ∀ w, z.rows[resFirst h]? = some w → w.back = true) ∧ s.keepsControl v

/-! ### Sieve, capacity pass, Whisk and Hive -/

/-- R505, R81, R95, R86, R88: the load of the next (layer, half) in order begins once its first tile is in the tile store,
whose weights are then in the shadow registers, and takes the shape of R82. A page fetched joins the tile store and is
counted; pages that the order of R80 now has after it make room. The current floor's ramp begins after the gap and takes sixteen steps, in each of which a further sixteenth of the
rows stops; with the floor off nothing is counted. That pages fetched ahead for another shape make room is the model's choice (log
entry 101). That the rows of a step stop at its end, so that each of the sixteen
counts 150 cycles, and that SIEVE_STATUS shows the (layer, half) from the first tile's load on, are the model's choices (log
entry 96). -/
def Obligations.SieveLoadsPagesAndRamps : Prop :=
  ∀ (s : State) (a : Nat), s.hasRegion a = true → a < s.sieves.length → s.atWork = true → s.errs = [] →
    (∀ l h sh, s.nextHalf a = some (l, h) → l < 256 → s.inStep = true → s.sieveDone a = true →
      sh = chooseShape (s.gateRec l) (s.get (F.sieveCtlShapeMode a)) (SMap.get zeroAt (s.sieve a).tp (2 * l + h)) →
      s.tileHere a l (s.passOf a l) sh 0 = true → 0 < (s.gateRec l).tiles sh → (s.sieve a).bad.contains l = false → (s.portHalf l h a).toks = [] →
      (s.portHalf l h a).last = false →
      ∃ t, exec (.sieveTileLoadStart a) s = .next t ∧ (t.sieve a).cur = some (l, h) ∧ (t.sieve a).shape = sh ∧
        (t.sieve a).base = 0 ∧ (t.sieve a).tile = 0 ∧
        (t.sieve a).shadow = some ((s.sieve a).loadTile (s.gateRec l) l (s.passOf a l) sh 0) ∧
        t.get (F.sieveStatusLayer a) = l ∧ t.get (F.sieveStatusHalf a) = h ∧ t.get (F.sieveStatusShape a) = sh ∧
        t.hive = s.hive ∧ t.step = s.step ∧ t.links = s.links ∧ t.ports = s.ports ∧ s.keepsControl t) ∧
    (∀ r stall, s.pagerPage a = some r → s.job.model ≠ none → (s.sieve a).bad.contains r.layer = false →
      ((s.sieve a).store.any (fun p => p.pass == r.pass) = true ∨
        s.hive.upsets = [] ∧ recOk 8 (s.gateBytes r.layer) = true) →
      (∀ k, (s.sieve a).cur = some k → (s.portHalf k.1 k.2 a).toks = [] ∧ (s.portHalf k.1 k.2 a).last = false) →
      ∃ t, exec (.sievePageFetchDone a stall) s = .next t ∧
        (t.sieve a).store = (s.sieve a).store.filter (fun p =>
            !(p.layer == r.layer && p.pass == r.pass && r.later.contains (p.col, p.row))) ++
          [⟨r.layer, r.pass, r.page.1, r.page.2, s.pageBytes (s.gateRec r.layer) r.page⟩] ∧
        t.word (R.sievePageCnt a) = s.word (R.sievePageCnt a) + 1 ∧
        t.word (R.sieveStallCnt a) = s.word (R.sieveStallCnt a) + BitVec.ofNat 32 stall ∧ t.hive = s.hive ∧
        t.step = s.step ∧ t.links = s.links ∧ t.ports = s.ports ∧ s.keepsControl t) ∧
    (s.floorOn a = true → (s.sieve a).ramp = 1 →
      exec (.sieveRampStart a) s = .next ((s.updSieve a (fun y => { y with ramp := 2, rampStep := 0 })).inc
        (R.sieveFloorCnt a) (max 64 (s.eff (F.sieveFloorGap a))))) ∧
    ((s.sieve a).ramp = 2 →
      ∃ t, exec (.sieveRampStep a) s = .next t ∧ t = { s with regs := t.regs, sieves := t.sieves } ∧
        (s.floorOn a = true → t.word (R.sieveFloorCnt a) = s.word (R.sieveFloorCnt a) + 150 ∧
          s.keepsRegsBut t [R.sieveFloorCnt a] ∧
          (t.sieve a).ramp = (if 15 ≤ (s.sieve a).rampStep then 0 else 2) ∧
          (t.sieve a).rampStep = (if 15 ≤ (s.sieve a).rampStep then 0 else (s.sieve a).rampStep + 1) ∧
          (t.sieve a).dummyRows = 256 - 16 * ((s.sieve a).rampStep + 1)) ∧
        (s.floorOn a = false → t.regs = s.regs ∧ (t.sieve a).ramp = 1 ∧ (t.sieve a).dummyRows = 256))

/-- R107 to R116, R124: the token at the head of the scoring unit, whose logits are all there, takes the experts that the
selection of its gate logits gives, and is counted with its NaN results. R75 to R77: a column's sum over the whole reduction
is the same in every shape, for weights `w` by row and block shifts `e` by block: in 64-row segments in order, or modulo
2^32. -/
def Obligations.ScoredTokenTakesItsExperts : Prop :=
  (∀ (s : State) (a cyc l h i : Nat) (x : Tok) (sel : Selection), s.hasRegion a = true → s.atWork = true →
    s.errs = [] → s.inStep = true → s.sieveWork a = some (l, h, i) → s.tok l h a i = some x →
    (s.sieve a).bad.contains l = false → s.hive.upsets = [] → recOk 8 (s.selBytes l) = true →
    sel = selectToken (s.selRec l) (s.biases l (s.selRec l).n) (s.headLogits a) →
    ∃ t y, exec (.scoringTokenDone a cyc) s = .next t ∧ t.tok l h a i = some y ∧ y.scored = true ∧
      y.leaves = leavesOf (s.selRec l) sel s.self ∧ y.scores = sel.scores ∧ y.stream = x.stream ∧ y.pos = x.pos ∧
      (t.sieve a).ready = (s.sieve a).ready.drop 1 ∧ t.word (R.selTokCnt a) = s.word (R.selTokCnt a) + 1 ∧
      t.word R.rasNonfiniteCnt = s.word R.rasNonfiniteCnt + BitVec.ofNat 32 sel.nans ∧
      t.links = s.links ∧ t.ports = s.ports ∧ t.swarm = s.swarm ∧ s.keepsControl t) ∧
  ∀ (g : GateRec) (f : FedRow) (w e : Nat → Nat) (tileOf : Nat → Nat → SieveTile) (sh : Nat),
    (∀ sh q, tileOf sh q = ⟨g.fmt, q, (List.range (min (shapeRows sh) (g.kr - q * shapeRows sh))).map (fun k =>
        [w (q * shapeRows sh + k)]),
      (List.range (2 * cellElems g.fmt * (shapeRows sh / 64))).map (fun b =>
        [e (2 * cellElems g.fmt * (q * shapeRows sh / 64) + b)])⟩) →
    1 ≤ sh → sh ≤ 3 →
    (List.range (g.slices sh)).foldl (fun acc q => passColumn g sh (tileOf sh q) f acc 0) 0 =
      (List.range (g.slices 1)).foldl (fun acc q => passColumn g 1 (tileOf 1 q) f acc 0) 0

/-- R117, R119, R118: the capacity pass of a (layer, half) starts once every token is selected, in a member too where the
roster header read then passes its check (R234), takes its token count, and ends once every payload is written. In it no member takes more copies of an expert than its capacity. -/
def Obligations.CapacityPassStartsEndsAndHoldsCapacity : Prop :=
  (∀ (s : State) (l h : Nat), s.atWork = true → s.errs = [] → s.capReady l h = true →
    (s.member = true → s.hive.upsets = [] ∧ hdrOk s.modelLayers (s.rosterHdr (s.copyAt s.stepSeq)) = true) →
    h < (s.layerRec l).halves.length →
    ∃ t, exec (.capacityPassStart l h) s = .next t ∧ (t.half l h).cap = 1 ∧ (t.half l h).th = (s.half l h).tokens ∧
      (∀ a, a < s.nRegions → t.get (F.selStatusCapPass a) =
        (if s.get (F.selStatusLayer a) = l ∧ s.get (F.selStatusHalf a) = h then 1 else s.get (F.selStatusCapPass a))) ∧
      t.hive = s.hive ∧ t.sieves = s.sieves ∧
      t.links = s.links ∧ t.ports = s.ports ∧ s.keepsControl t) ∧
  (∀ (s : State) (l h : Nat), s.atWork = true → s.errs = [] → s.upset = [] → s.capCanEnd l h = true →
    (s.capEnd l h).errs = [] →
    ∃ t, exec (.capacityPassEnd l h) s = .next t ∧ (t.half l h).cap = 2 ∧ (t.half l h).th = (s.half l h).th ∧
      (∀ a, a < s.nRegions → t.get (F.selStatusCapPass a) =
        (if s.get (F.selStatusLayer a) = l ∧ s.get (F.selStatusHalf a) = h then 0 else s.get (F.selStatusCapPass a))) ∧
      t.links = s.links ∧
      s.keepsPortsButTiles t ∧ s.keepsTileRows t ∧ s.keepsControl t) ∧
  ∀ (set : List Nat) (cap : Nat → Nat) (ds : List Nat) (d : Nat),
    (placeAll set cap [] ds).count (some d) ≤ cap d ∧ (placeAll set cap [] ds).length = ds.length

/-- R145, R148, R178: the Whisk writes the quantised row of its region's next token into the payload that the Hive granted,
gives up its reference to the hidden-state row, and counts the token with what its conversion saturated; of the Hive nothing
else changes. -/
def Obligations.WhiskWritesTheDispatchPayload : Prop :=
  ∀ (s w u : State) (a l h i : Nat) (x : Tok) (hd dh : Handle) (out : List Byte × ConvEv), s.hasRegion a = true →
    s.atWork = true → s.errs = [] → s.inStep = true → s.whiskNext a = some (l, h, i) → s.tok l h a i = some x →
    x.hs = some hd → s.whiskReadOk a l = (true, w) →
    w.useHandle hd (hsRowBytes x.hsFmt (s.gateRec l).h) .whisk a none = (true, u) → u.hive.upsets = [] →
    out = s.quantise l (s.offsetOf l) x.hsFmt (s.payload hd (hsRowBytes x.hsFmt (s.gateRec l).h)) →
    (u.allocPay clDisp out.1.length 1 true (.whisk a)).1 = some dh →
    (u.allocPay clDisp out.1.length 1 true (.whisk a)).2.errs = [] →
    ((u.allocPay clDisp out.1.length 1 true (.whisk a)).2.writePay dh 0 out.1).handleOk hd = true →
    ∃ t y, exec (.whiskPayloadWritten a) s = .next t ∧ t.tok l h a i = some y ∧ y.whisked = true ∧ y.disp = some dh ∧
      y.leaves = x.leaves ∧
      t.hive = (((u.allocPay clDisp out.1.length 1 true (.whisk a)).2.writePay dh 0 out.1).release hd (8 * a) none).hive ∧
      t.word (R.whiskTokCnt a) = s.word (R.whiskTokCnt a) + 1 ∧
      t.word (R.whiskSatCnt a) = s.word (R.whiskSatCnt a) + BitVec.ofNat 32 out.2.sat ∧
      t.step.cnt.sat = s.step.cnt.sat + out.2.sat ∧ t.links = s.links ∧ t.ports = s.ports ∧ t.swarm = s.swarm ∧
      s.keepsControl t

/-- R158, R159 (the bytes of the Hive), R164 (its slot list), R183 and R188: a write of the Hive is read back, leaves every
other byte and keeps the memory canonical; the slot freed last is the next one taken; a waiting request is served. That its
operand is what HIVE_WAIT_CNT grows by, and that number 5 of the command stands for the header slots, are the model's
readings (log entry 34). R189, R188: a refresh that is due takes its channel for 40 cycles, and one inside a granted burst
is counted as a preemption; with none due nothing happens. -/
def Obligations.HiveKeepsItsBytesAndLists : Prop :=
  (∀ (s : State) (a : Nat) (d : List Byte), (∀ i, i < d.length → (s.hput a d).hiveByte (a + i) = d.getD i 0) ∧
    (∀ b, (b < a ∨ a + d.length ≤ b) → (s.hput a d).hiveByte b = s.hiveByte b) ∧
    (Memory.wf s = true → Memory.wf (s.hput a d) = true)) ∧
  (∀ (s : State) (i : Nat) (own : Bool), ((s.freeSlot i).popSlot own).1 = i ∧
    ((s.freeSlot i).popSlot own).2.hive.slotHead = s.hive.slotHead % 2 ^ 32) ∧
  (∀ (s : State) (q waited : Nat) (r : AllocReq), q < 6 → s.atWork = true → s.errs = [] →
    s.purgeWaiters.nextWaiter q = some r →
    exec (.hiveAllocGrant q waited) s = .next ((s.purgeWaiters.inc R.hiveWaitCnt waited).retryAlloc r.src).actOnErrors ∧
    ∀ a, r.src = .whisk a → s.hasRegion a = true → exec (.hiveAllocGrant q waited) s =
      exec (.whiskPayloadWritten a) (s.purgeWaiters.inc R.hiveWaitCnt waited)) ∧
  ∀ (s : State) (ch : Nat), ch < 4096 → s.clocked = true → s.errs = [] →
    (s.refreshDue ch = false → exec (.hiveRefresh ch) s = .next s) ∧
    (s.refreshDue ch = true →
      ∃ t, exec (.hiveRefresh ch) s = .next t ∧ t.refreshDue ch = false ∧
        (t.bus.chan ch).emer = (s.bus.chan ch).emer + 40 ∧ (t.bus.chan ch).held = (s.bus.chan ch).held ∧
        (t.bus.chan ch).queue = (s.bus.chan ch).queue ∧
        t.word R.hivePreemptCnt = s.word R.hivePreemptCnt + (if (s.bus.chan ch).held.isSome then 1 else 0) ∧
        s.keepsRegsBut t [R.hivePreemptCnt] ∧ t = { s with regs := t.regs, bus := t.bus })

/-! ### Dispatch and combining -/

/-- R202: a cluster hands its next packet to the Forager of its route, with a header slot for each copy, and counts it.
R204: a manifest goes to its destination's Forager on VC2. -/
def Obligations.ClustersHandOverPacketsAndManifests : Prop :=
  (∀ (s g : State) (c l h n : Nat) (p : OutPkt) (ps : List OutPkt) (t : Tok) (xs : List Leaf) (hb : List Byte)
      (slots : List Nat), s.hasCluster c = true → s.atWork = true → s.errs = [] → s.upset = [] → s.inStep = true →
    s.nextSend c = some (l, h) → (s.half l h).cap = 2 → (s.half l h).queues.getD c [] = p :: ps →
    s.member = true → g = s.checkStream .cluTx c p.stream → g.errs = [] → s.packetLeaves l h p = some (t, xs) → s.isLost p.dest = false →
    s.flushed c p.stream = false → hb = (s.packetHdrs l h p t xs (s.half l h).epoch false).flatMap W8.bytes →
    s.routeOf 2 (s.cmidOf p.dest) none hb = some n → s.vcRoom n 2 = true → n < s.links.length →
    2 < (s.link n).tx.q.length → (g.allocSlots xs.length true (.hand c)).1 = some slots →
    ∃ v, exec (.cluPacketHandover c) s = .next v ∧
      (v.link n).tx.q.getD 2 [] = (s.link n).tx.q.getD 2 [] ++
        [TxPkt.own 2 (s.cmidOf p.dest) xs.length hb (p.disp.map (fun d => (d, s.dispBytes l))) slots] ∧
      v.word (R.cluPktTxCnt c) = s.word (R.cluPktTxCnt c) + 1 ∧
      v.word (R.cluHdrTxCnt c) = s.word (R.cluHdrTxCnt c) + BitVec.ofNat 32 xs.length ∧
      (v.half l h).queues.getD c [] = ps ∧ v.ports = s.ports ∧ v.tiles = s.tiles ∧ s.keepsControl v) ∧
  ∀ (s : State) (c l h n d : Nat) (hdr : W8), s.hasCluster c = true → s.atWork = true → s.errs = [] → s.upset = [] →
    s.inStep = true → s.member = true →
    s.nextSend c = some (l, h) → (∀ k, k ≠ c → s.nextSend k ≠ some (l, h)) → (s.half l h).mansReady = true →
    (s.half l h).mans.getD c [] = [d] → s.isLost d = false →
    hdr = s.manHdr l h d (s.half l h).epoch (((s.half l h).manBody d).length / 16) →
    s.routeOf 2 (s.cmidOf d) none hdr.bytes = some n → s.vcRoom n 2 = true → n < s.links.length →
    2 < (s.link n).tx.q.length →
    ∃ v, exec (.cluManifestSend l h) s = .next v ∧
      (v.link n).tx.q.getD 2 [] = (s.link n).tx.q.getD 2 [] ++
        [TxPkt.own 2 (s.cmidOf d) 1 (hdr.bytes ++ (s.half l h).manBody d) none []] ∧
      v.word (R.cluManTxCnt c) = s.word (R.cluManTxCnt c) + 1 ∧ (v.half l h).mans.getD c [] = [] ∧ v.hive = s.hive ∧
      v.ports = s.ports ∧ v.tiles = s.tiles ∧ s.keepsControl v

/-- R199, R205, R209, R211, R212: the oldest packet of a link that passes its checks is taken in its step: the headers of a
dispatch packet and of a result move to header slots of the Hive and the body to a payload, and of the Hive nothing else
changes; a manifest is kept for its member; each header is counted. R164, R176: each slot of a packet then holds its header
and the payload's handle, and a payload reads back as it was written. That a manifest of the current step takes neither a header
slot nor a payload, where R212 gives both to a packet, is the model's choice (log entry 96). -/
def Obligations.ReceivedPacketsAreTaken : Prop :=
  ∀ (s : State) (n i : Nat) (p : RxPkt), s.hasLink n = true → s.atWork = true → s.errs = [] → s.upset = [] →
    s.member = true →
    (∀ (slots : List Nat) (hd : Handle) (g : State), s.rxHead n 2 = some (i, p) → W8.ttype (p.hdr 0) = 1 →
      s.pktOk 2 p = true → s.stepOf (p.hdr 0) = some 0 → W8.tpoison (p.hdr 0) = false →
      (s.allocSlots p.nhdr false (.rx n 2)).1 = some slots →
      (s.allocSlots p.nhdr false (.rx n 2)).2.allocPay clDisp (16 * W8.tlen (p.hdr 0)) p.nhdr false (.rx n 2) =
        (some hd, g) → g.errs = [] →
      ((s.half (W8.tlayer (p.hdr 0)) (W8.thalf (p.hdr 0))).rxOf (W8.tsrc (p.hdr 0))).man = none →
      W8.thalf (p.hdr 0) < (s.layerRec (W8.tlayer (p.hdr 0))).halves.length →
      ∃ t, exec (.dispatchPacketRx n) s = .next t ∧
        (t.rxq n 2)[i]? = some { p with taken := some (some hd, slots), places := 0, counted := true } ∧
        t.hive = (((g.unwait false (.rx n 2)).fillSlots p.hdrs slots (some hd) clDisp false 0 0).writePay hd 0 p.body).hive ∧
        t.word (R.cluHdrRxCnt (n / 2)) = s.word (R.cluHdrRxCnt (n / 2)) + BitVec.ofNat 32 p.nhdr ∧
        ((t.half (W8.tlayer (p.hdr 0)) (W8.thalf (p.hdr 0))).rxOf (W8.tsrc (p.hdr 0))).count =
          ((s.half (W8.tlayer (p.hdr 0)) (W8.thalf (p.hdr 0))).rxOf (W8.tsrc (p.hdr 0))).count + p.nhdr ∧
        s.keepsPortsButTiles t ∧ s.keepsTileRows t ∧ s.keepsControl t) ∧
    (∀ (b : List Byte) (k : Nat), s.rxHead n 2 = some (i, p) → W8.ttype (p.hdr 0) = 3 → p.whole = true → p.pab = false →
      s.pktOk 2 p = true → s.stepOf (p.hdr 0) = some 0 → b = padTo 16 p.body → manCrcOk b = true →
      (∀ e ∈ manEntries b, e.1 < 1032) → k = (wordAt b 0).toNat → sumNat ((manEntries b).map (·.2)) = k →
      ((s.half (W8.tlayer (p.hdr 0)) (W8.thalf (p.hdr 0))).rxOf (W8.tsrc (p.hdr 0))).man = none →
      ((s.half (W8.tlayer (p.hdr 0)) (W8.thalf (p.hdr 0))).rxOf (W8.tsrc (p.hdr 0))).count ≤ k →
      W8.thalf (p.hdr 0) < (s.layerRec (W8.tlayer (p.hdr 0))).halves.length →
      ∃ t, exec (.manifestRx n) s = .next t ∧ t.rxq n 2 = (s.rxq n 2).eraseIdx i ∧
        t.word (R.cluManRxCnt (n / 2)) = s.word (R.cluManRxCnt (n / 2)) + 1 ∧ t.hive = s.hive ∧
        ((t.half (W8.tlayer (p.hdr 0)) (W8.thalf (p.hdr 0))).rxOf (W8.tsrc (p.hdr 0))).man = some (k, manEntries b) ∧
        s.keepsPortsButTiles t ∧ s.keepsTileRows t ∧ s.keepsControl t) ∧
    (∀ (slot : Nat) (slots : List Nat) (hd : Handle) (g : State), s.rxHead n 3 = some (i, p) → s.pktOk 3 p = true →
      s.stepOf (p.hdr 0) = some 0 → W8.tpoison (p.hdr 0) = false →
      (s.allocSlots 1 true (.rx n 3)).1 = some (slot :: slots) →
      (s.allocSlots 1 true (.rx n 3)).2.allocPay clRes (16 * W8.tlen (p.hdr 0)) 1 true (.rx n 3) = (some hd, g) →
      g.errs = [] →
      ∃ t, exec (.resultPacketRx n) s = .next t ∧ t.step = s.step ∧
        (t.rxq n 3)[i]? = some { p with taken := some (some hd, [slot]), places := 0, counted := true } ∧ t.ports = s.ports ∧
        t.hive = ((((g.unwait true (.rx n 3)).writeSlot slot (p.hdr 0) (some hd) clRes true 0).setOwner slot 0 0 0).writePay hd 0
          p.body).hive ∧ t.tiles = s.tiles ∧ s.keepsControl t) ∧
    (∀ (g : State) (hs : List W8) (slots : List Nat) (hd : Handle) (cls : Nat) (own : Bool) (d3 d4 : Word) (j slot : Nat)
        (hdr : W8), slots.Nodup → (hs.zip slots)[j]? = some (hdr, slot) → cls < 4 →
      (g.fillSlots hs slots (some hd) cls own d3 d4).slotHdr slot = hdr ∧
      (g.fillSlots hs slots (some hd) cls own d3 d4).slotHandle slot =
        ⟨hd.pool % 16, hd.cell % 2 ^ 32, hd.gen % 256⟩ ∧
      (g.writeSlot slot hdr (some hd) cls own d3).slotHdr slot = hdr) ∧
    ∀ (g : State) (hd : Handle) (b : List Byte), (hd.pool = 0 → b.length ≤ 512 * (g.chainCells (ceilDiv b.length 512) hd.cell).length ∧
        (g.chainCells (ceilDiv b.length 512) hd.cell).Nodup ∧
        (g.writePay hd 0 b).chainCells (ceilDiv b.length 512) hd.cell = g.chainCells (ceilDiv b.length 512) hd.cell) →
      (g.writePay hd 0 b).payload hd b.length = b

/-- R214, R220, R222, R224: a packet that has arrived whole gives its copies to its cluster's append queue; a copy joins the
open tile of its key; a closed tile, and the manifest of a die, leave with their credits. -/
def Obligations.CopiesBecomeTileRowsAndLeave : Prop :=
  (∀ (s : State) (n : Nat) (p : RxPkt) (q : List RxPkt) (hd : Handle) (slots : List Nat), s.hasLink n = true →
    s.atWork = true → s.errs = [] → s.upset = [] → n / 2 < s.clus.length → s.rxq n 2 = p :: q → p.taken = some (some hd, slots) →
    p.counted = true → p.released = false → p.whole = true → p.pab = false →
    ∃ t, exec (.cutThroughRelease n 2) s = .next t ∧ t.rxq n 2 = q ∧ t.hive = s.hive ∧ s.keepsTileRows t ∧
      (t.cluster (n / 2)).appendQ.map (fun x => (x.hdr, x.slot, x.h)) =
        (s.cluster (n / 2)).appendQ.map (fun x => (x.hdr, x.slot, x.h)) ++
          (p.hdrs.zip slots).map (fun z => (z.1, some z.2, hd)) ∧ s.keepsControl t ∧
      (s.halvesInOrder.all (fun k => !(s.half k.1 k.2).rxDone || (s.half k.1 k.2).tailsDone) = true →
        t.regs = s.regs ∧ t.tiles = s.tiles ∧ t.step = s.step)) ∧
  (∀ (s : State) (c x : Nat) (ap : Append) (rest : List Append) (t : Tile), s.hasCluster c = true → c < s.clus.length →
    s.atWork = true → s.errs = [] → s.upset = [] → s.hive.upsets = [] → s.inStep = true →
    (s.cluster c).appendQ = ap :: rest →
    ap.slot = some x → ap.loc = false → s.openTile ap.layer ap.half ap.expert ap.die = some t →
    t.rows.length + 1 < s.maxRows → (s.half ap.layer ap.half).rxDone = false →
    ∃ v, exec (.tileAppend c) s = .next v ∧ (v.cluster c).appendQ = rest ∧ v.regs = s.regs ∧ v.step = s.step ∧
      v.tiles.live = s.tiles.live.map (fun y =>
        if y.idx = t.idx then { y with rows := y.rows ++ [⟨x, ap.poison, false⟩] } else y) ∧
      v.links = s.links ∧ v.ports = s.ports ∧ s.keepsControl v) ∧
  ∀ (s : State) (a : Nat), s.hasRegion a = true → a < s.ports.length → s.atWork = true → s.errs = [] → s.upset = [] →
    s.inStep = true →
    (∀ (t : Tile) (body : List Byte), s.portPick a = some pcTile → s.tileHead a = some t →
      (∀ r ∈ t.rows, s.handleOk (s.slotHandle r.slot) = true) → s.hive.upsets = [] →
      (t.rows.foldl (fun u r => u.release (s.slotHandle r.slot) (8 * a) (some r.slot)) s).errs = [] →
      body = rowMask t.r t.rows.length ++ s.tileTable t ++ s.tileRows t →
      ∃ v hdr, exec (.expTileSend a) s = .next v ∧ v.outs = Out.dieMsg a hdr body :: s.outs ∧
        hdr = (dieHdr 2 (s.whiskRec t.layer).dfmt (t.rows.any (·.poison)) false (s.whiskRec t.layer).dblock (body.length / 16)
          t.layer t.half t.r ((s.half t.layer t.half).tilesSent.getD a 0) (at_ 21 t.expert ||| at_ 10 t.rows.length)
          (at_ 0 t.tag) s.stepSeq
          (at_ 24 t.variant) (at_ 0 (t.ordinal % 65536))).sealed ∧
        (v.port a).tiles = (s.port a).tiles.drop 1 ∧
        (v.port a).held = updAt (s.port a).held 0 (· - creditsFor body.length) ∧ v.links = s.links ∧ s.keepsControl v) ∧
    ∀ (l h : Nat) (rest : List (Nat × Nat)), s.portPick a = some pcManifest → (s.port a).mans = (l, h) :: rest →
      ∃ v, exec (.tileManifestSend a) s = .next v ∧ v.outs = Out.dieMsg a (dieHdr 3 0 false true false
          ((s.dieManBody l h a).length / 16) l h 0 0 (at_ 0 (s.manExperts l a).length)
          (BitVec.ofNat 32 ((s.half l h).tilesSent.getD a 0)) s.stepSeq 0 0).sealed (s.dieManBody l h a) :: s.outs ∧
        (v.port a).mans = rest ∧
        (v.port a).held = updAt (s.port a).held 0 (· - creditsFor (s.dieManBody l h a).length) ∧ v.hive = s.hive ∧ v.regs = s.regs ∧ v.links = s.links ∧ v.step = s.step ∧
        s.keepsControl v

/-- R313, R314, R315, R317, R321: the complete token at the window's head is combined in the ordered tree; in open mode an
available result is added into the token's sum; the finished rows leave in a COMB_RESULT. -/
def Obligations.LadlesCombineAndSend : Prop :=
  ∀ (s : State) (a : Nat), s.hasRegion a = true → s.atWork = true → s.errs = [] → s.upset = [] → s.inStep = true →
    (∀ (g0 g : State) (l h i waited : Nat) (x : Tok) (rest : List (Nat × Nat × Nat × Tok)) (sum : List Nat),
      s.step.ordered = true → s.ladleWindow a = (l, h, i, x) :: rest → x.row = none → s.tokComplete x = true →
      (s.inc (R.ladleHeadWaitCnt a) waited).slotsRead .ladle a ((x.leaves.filterMap (·.slot)).map (·.2)) = (true, g0) →
      g0.useHandles (s.resBytes l) .ladle a (x.leaves.filterMap (·.slot)) = (true, g) →
      sum = orderedSum s.nRegions (s.leafCount l) (s.gateRec l).h (s.contribs l x) →
      (((g.storeRow a l h i sum).releaseLeaves a l x).errs = [] →
      ∃ t, exec (.ladleCombineToken a waited) s = .next t ∧
        t.tok l h a i = some { x with row := some (s.combRow l sum).1, sums := none } ∧
        t.word (R.ladleHeadWaitCnt a) = s.word (R.ladleHeadWaitCnt a) + BitVec.ofNat 32 waited ∧
        t.links = s.links ∧ t.ports = s.ports ∧ s.keepsControl t)) ∧
    (∀ (l h i j n : Nat) (x : Tok) (y : Leaf) (hd : Handle) (av : List Nat) (rest : List (Nat × Nat × Nat × Tok)),
      s.step.ordered = false → s.ladleWindow a = (l, h, i, x) :: rest → x.avail = j :: av → x.leafAt j = some y →
      y.slot = some (hd, n) → s.slotArriving n = false → s.handleOk hd = true → s.hive.upsets = [] →
      ∃ t, exec (.ladleAddResult a) s = .next t ∧
        t.tok l h a i = some { x with
          avail := av, leaves := x.leaves.map (fun z => if z.leaf = y.leaf then { z with st := .added } else z)
          sums := some (fmaRow (s.slotHdr n).w3.toNat (s.resValues l hd)
            (x.sums.getD (List.replicate (s.gateRec l).h 0))) } ∧
        t.word (R.ladleContribCnt a) = s.word (R.ladleContribCnt a) + 1 ∧ t.links = s.links ∧ t.ports = s.ports ∧
        s.keepsControl t) ∧
    ∀ (l h : Nat) (rows : List Tok) (last : Bool), s.portPick a = some pcComb → s.combNext a = some (l, h, rows, last) →
      last = false → (∀ k ∈ s.inFlight, s.layerComplete k = false) → s.step.done.length ≠ s.modelLayers →
      a < s.ports.length →
      ∃ t body, exec (.combResultSend a) s = .next t ∧
        body = combBody (rows.map (fun x => { x with poison := x.poison || s.step.torn.contains x.stream })) ∧
        t.outs = Out.dieMsg a (dieHdr 5 (if s.eff F.ladleCtlOutFp32 = 1 then 0 else (s.whiskRec l).cfmt)
          (rows.any (fun x => x.poison || s.step.torn.contains x.stream)) false
          (s.eff F.ladleCtlOutFp32 != 1 && (s.whiskRec l).cblock) (body.length / 16) l h rows.length (s.portHalf l h a).msgs
          (at_ 0 (s.portHalf l h a).sent) 0 s.stepSeq 0 0).sealed body :: s.outs ∧
        (t.port a).held = updAt (s.port a).held 1 (· - creditsFor body.length) ∧ (t.portHalf l h a).sent = (s.portHalf l h a).sent + rows.length ∧
        t.word (R.ladleTokCnt a) = s.word (R.ladleTokCnt a) + BitVec.ofNat 32 rows.length ∧ t.hive = s.hive ∧
        t.links = s.links ∧ s.keepsControl t

/-! ### The Swarm, the barrier and absent instances -/

/-- R341, R344, R349, R351, R352: a contribution of a sum of the next step, from a die or from a child over a link, moves
into the P4 cell that the Hive granted, of which nothing else changes, and is held at its node until that step; a chunk that
waited for the window opens. R212, R269: of a packet that is not whole yet, the bytes that are in move to its cell and free
their places. R354: a NOTICE goes on toward the root.
R345 to R348: in the step of a sum the package's node adds the contribution it holds, the next child in rank order or,
in open mode, the first that came, to what it has added so far, element by element in binary32 or as integers, and gives its
cell up. With the last child's, the sum in its format goes to a cell of its own, what saturated is counted, and it goes up to
the parent's package; at the root it is the result, which each die gets with its signal. -/
def Obligations.SwarmContributionsAreHeldAndAdded : Prop :=
  (∀ (s : State), s.atWork = true → s.errs = [] → s.upset = [] → (s.bar.open_ = true → s.bar.arrived = true) →
    (∀ (g : State) (a : Nat) (h : W8) (body : List Byte) (k : ChunkKey) (c : Chunk) (x : SwmNode) (cell : Handle),
      s.hasRegion a = true → a < s.ports.length → g = s.stage a 2 h body true → k = swmKey h → h.ok = true → W8.msg h = 6 →
      (s.port a).swm = [] → g.swmInOk a h = true → s.chunkOf k = some c → c.final = false → c.node 0 = some x →
      x.done = false → (∀ y ∈ c.nodes, ∀ z ∈ y.held, z.poison = false) → s.mustDefer c = true → W8.dpoison h = false →
      (g.allocP4 1 (.swmPort a)).1 = some cell → (g.allocP4 1 (.swmPort a)).2.errs = [] →
      ∃ t c' x', exec (.swarmIn a h body) s = .next t ∧ (t.port a).swm = [] ∧ t.chunkOf k = some c' ∧ c'.node 0 = some x' ∧
        x'.held = x.held ++ [⟨a, false, some cell⟩] ∧ x'.got = x.got ++ [a] ∧
        t.hive = ((g.allocP4 1 (.swmPort a)).2.writePay cell 0 (W8.bodyOf h body)).hive ∧ t.links = s.links ∧
        s.keepsControl t) ∧
    (∀ (u : State) (a : Nat) (m : Staged) (k : ChunkKey) (c : Chunk) (x : SwmNode) (cell : Handle),
      s.hasRegion a = true → a < s.ports.length → s.roster.rev = none → s.swarm.chunks = [] → (s.port a).swm = [m] →
      (∀ b, b ≠ a → (s.port b).swm = []) → m.checked = true → k = swmKey m.h → s.swmInOk a m.h = true →
      W8.dpoison m.h = false → s.openChunk k (swmShape m.h) = some u → u.chunkOf k = some c → c.node 0 = some x →
      x.done = false → (∀ y ∈ c.nodes, y.held = []) → u.mustDefer c = true → c.final = false → u.errs = [] →
      (u.allocP4 1 (.swmPort a)).1 = some cell → (u.allocP4 1 (.swmPort a)).2.errs = [] →
      ∃ t c' x', exec .swarmChunkOpen s = .next t ∧ (t.port a).swm = [] ∧ t.chunkOf k = some c' ∧ c'.node 0 = some x' ∧
        x'.held = [⟨a, false, some cell⟩] ∧ t.hive = ((u.allocP4 1 (.swmPort a)).2.writePay cell 0 m.body).hive ∧
        s.keepsControl t) ∧
    ∀ (n i : Nat) (p : RxPkt), s.hasLink n = true → s.member = true → s.swmHead n = some (i, p) → s.chunkHdrOk p = true →
      (∀ (k : ChunkKey) (c : Chunk) (lv child : Nat) (x : SwmNode) (cell : Handle), W8.sdir (p.hdr 0) = 0 →
        W8.tpoison (p.hdr 0) = false → p.pab = false → p.whole = true → p.taken = none → k = hdrKey (p.hdr 0) →
        s.chunkOf k = some c → c.final = false → s.upTarget (s.groupTree (W8.sgroup (p.hdr 0)) (W8.tseq (p.hdr 0))) (W8.ssrc (p.hdr 0)) = some (lv, child) →
        c.node lv = some x → x.done = false → x.got.contains child = false →
        (∀ y ∈ c.nodes, ∀ z ∈ y.held, z.poison = false) → (∀ y, c.node 0 = some y → y.done = false) →
        s.mustDefer c = true → (s.allocP4 1 (.rx n 1)).1 = some cell →
        (s.allocP4 1 (.rx n 1)).2.errs = [] →
        ∃ t c' x', exec (.swarmChunkRx n) s = .next t ∧ t.rxq n 1 = (s.rxq n 1).eraseIdx i ∧ t.chunkOf k = some c' ∧
          c'.node lv = some x' ∧ x'.held = x.held ++ [⟨child, false, some cell⟩] ∧ x'.got = x.got ++ [child] ∧
          t.hive = ((s.allocP4 1 (.rx n 1)).2.writePay cell 0 p.body).hive ∧ t.ports = s.ports ∧ s.keepsControl t) ∧
      (∀ (k : ChunkKey) (c : Chunk) (cell : Handle), W8.sdir (p.hdr 0) ≠ 2 → W8.tpoison (p.hdr 0) = false → p.pab = false →
        p.whole = false → p.taken = none → k = hdrKey (p.hdr 0) → (k.1 = s.curSeq ∨ k.1 = seqAdd s.curSeq 1) →
        s.chunkOf k = some c → c.final = false → (s.allocP4 1 (.rx n 1)).1 = some cell →
        (s.allocP4 1 (.rx n 1)).2.errs = [] →
        ∃ t, exec (.swarmChunkRx n) s = .next t ∧
          (t.rxq n 1)[i]? = some { p with taken := some (some cell, []), places := 0 } ∧
          t.hive = ((s.allocP4 1 (.rx n 1)).2.writePay cell 0 p.body).hive ∧ t.ports = s.ports ∧ s.keepsControl t) ∧
      ∀ (k : ChunkKey) (c : Chunk) (tr : TreeDesc) (top seat m : Nat), W8.sdir (p.hdr 0) = 2 → p.whole = true →
        p.taken = none → k = hdrKey (p.hdr 0) →
        s.chunkOf k = some c → tr = s.groupTree c.group c.step → top = (s.ownLevels tr).foldl max 0 → top < tr.scope →
        seat = s.seat tr (top + 1) s.self → s.seatLost seat = false →
        s.routeOf 1 seat none (s.chunkHdr c 2 seat true).bytes = some m → m < s.links.length → 1 < (s.link m).tx.q.length →
        ∃ t, exec (.swarmNoticeRx n) s = .next t ∧ t.rxq n 1 = (s.rxq n 1).eraseIdx i ∧
          (t.link m).tx.q.getD 1 [] = (s.link m).tx.q.getD 1 [] ++
            [TxPkt.own 1 seat 1 (s.chunkHdr c 2 seat true).bytes none []] ∧ t.hive = s.hive ∧ t.ports = s.ports ∧ s.keepsControl t) ∧
  (∀ (s : State) (c : Chunk) (x : SwmNode) (i : SwmIn) (cell : Handle) (v : List Nat), s.atWork = true → s.errs = [] → s.upset = [] →
    (s.bar.open_ = true → s.bar.arrived = true) → s.roster.rev = none → s.swarm.chunks = [c] → c.final = false →
    (∀ a, (s.port a).swm = []) → c.sums = true → s.mustDefer c = false → c.group ≠ 15 → c.node 0 = some x → x.done = false →
    x.held = [i] → i = ⟨i.child, false, some cell⟩ → s.nextIn c x = some i → s.handleOk cell = true → cell.pool ≠ 0 → s.hive.upsets = [] →
    (∀ y ∈ c.nodes, y.level ≠ 0 → y.done = false ∧ y.held = [] ∧ (s.expected c y.level).all (fun j => y.added.contains j) = false) →
    v = swmAdd c.shape.fmt (x.acc.getD (List.replicate c.shape.elems 0))
      (swmValues c.shape.fmt c.shape.elems (s.payload cell c.shape.len)) →
    ((s.expected c 0).all (fun j => (x.added ++ [i.child]).contains j) = false →
      ∃ t c', exec .swarmChunkOpen s = .next t ∧ t.swarm.chunks = [c'] ∧
        c'.node 0 = some { x with held := [], added := x.added ++ [i.child], acc := some v } ∧
        t.hive = (s.release cell 0 none).hive ∧ t.swarm.outs = s.swarm.outs ∧ t.links = s.links ∧ t.ports = s.ports ∧
        s.keepsControl t) ∧
    ∀ (z g : State) (sum : Handle) (out : List Byte × Nat) (tr : TreeDesc),
      (s.expected c 0).all (fun j => (x.added ++ [i.child]).contains j) = true → (s.expected c 0).isEmpty = false →
      z = s.addNode c.key 0 2 → z.allocP4 1 (.swmPort 4) = (some sum, g) → g.errs = [] → out = swmOut c.shape.fmt v →
      tr = s.groupTree c.group c.step →
      (∀ m, 0 < tr.scope → s.seat tr 1 s.self ≠ s.cmid → s.seatLost (s.seat tr 1 s.self) = false →
        s.routeOf 1 (s.seat tr 1 s.self) none (s.chunkHdr c 0 (s.seat tr 1 s.self) false).bytes = some m →
        m < s.links.length → 1 < (s.link m).tx.q.length →
        ∃ t, exec .swarmChunkOpen s = .next t ∧ t.word R.swarmSatCnt = s.word R.swarmSatCnt + BitVec.ofNat 32 out.2 ∧
          t.hive = (g.writePay sum 0 out.1).hive ∧ (t.link m).tx.q.getD 1 [] = (s.link m).tx.q.getD 1 [] ++
            [TxPkt.own 1 (s.seat tr 1 s.self) 1 (s.chunkHdr c 0 (s.seat tr 1 s.self) false).bytes
              (some (sum, c.shape.len)) []] ∧
          (s.nodeNeeds c 0 = true → t.swarm.outs = s.swarm.outs) ∧ t.ports = s.ports ∧ s.keepsControl t) ∧
      (tr.scope = 0 → c.shape.op = 1 → (g.writePay sum 0 out.1).handleOk sum = true →
        ((((g.writePay sum 0 out.1).addRef sum (s.diesOf c.group c.step s.self).length 0).2).release sum 0 none).errs = [] →
        ∃ t, exec .swarmChunkOpen s = .next t ∧ t.word R.swarmSatCnt = s.word R.swarmSatCnt + BitVec.ofNat 32 out.2 ∧
          t.hive = ((((g.writePay sum 0 out.1).addRef sum (s.diesOf c.group c.step s.self).length 0).2).release sum 0 none).hive ∧
          t.swarm.outs = s.swarm.outs ++ (s.diesOf c.group c.step s.self).flatMap (fun d =>
            [⟨d, c.key, c.shape, some sum, sgDone⟩, ⟨d, c.key, c.shape, none, sgDone⟩]) ∧
          t.links = s.links ∧ t.ports = s.ports ∧ s.keepsControl t))

/-- R342: the Swarm message at the head for a die leaves: an output with the bytes of its cell, or a signal with its STATUS,
each against a credit of its class. -/
def Obligations.SwarmMessagesLeaveToTheDie : Prop :=
  ∀ (s : State) (a : Nat) (o : SwmOut), s.hasRegion a = true → a < s.ports.length → s.atWork = true → s.errs = [] →
    s.upset = [] → s.portPick a = some pcSwarm → s.outHead a = some o → (s.bar.open_ = true → s.bar.arrived = true) →
    (∀ hd, o.cell = some hd → s.handleOk hd = true → s.hive.upsets = [] →
      ∃ t, exec (.swarmOutSend a) s = .next t ∧ t.swarm.outs = dropFirst a s.swarm.outs ∧
        t.outs = Out.dieMsg a (outHdr o).sealed (s.payload hd o.shape.len) :: s.outs ∧
        (t.port a).held = updAt (s.port a).held 2 (· - creditsFor (s.payload hd o.shape.len).length) ∧ t.links = s.links ∧
        s.keepsControl t) ∧
    (o.cell = none →
      ∃ t, exec (.swarmSignalSend a) s = .next t ∧ t.swarm.outs = dropFirst a s.swarm.outs ∧ t.hive = s.hive ∧
        t.outs = Out.dieMsg a (signalHdr o).sealed [] :: s.outs ∧ (t.port a).held = updAt (s.port a).held 2 (· - 1) ∧
        t.links = s.links ∧ s.keepsControl t)

/-- R358, R359, R360, R362, R364, R366: an ARRIVE of the open barrier counts its child; a RELEASE gives the fire cycle, its
receipt plus REM less DELAY, or the next cycle, late; at the fire cycle the barrier fires with a pulse, or in EXT mode only
the pulse goes out; a barrier that stays open too long is a control error. That LATE reads 0 from a RELEASE in time on,
before the fire it tells of, is the model's reading (log entry 106). -/
def Obligations.BarrierArrivesReleasesAndFires : Prop :=
  (∀ (s : State) (n i cyc lv child : Nat) (p : RxPkt), s.hasLink n = true → s.atWork = true → s.errs = [] →
    s.ctlHead n = some (i, p) → s.member = true → p.pab = false → s.barHdrOk p = true → s.bar.open_ = true →
    W8.tseq (p.hdr 0) = s.bar.step →
    (p.isBar 8 = true → fld (p.hdr 0).w2 9 0 = s.bar.excl.length → s.bar.fired = none →
      before 32 s.bar.step s.stepSeq = false →
      s.upTarget (s.barTree s.bar.step s.bar.excl) (W8.ssrc (p.hdr 0)) = some (lv, child) →
      ∃ t, exec (.arriveRx n cyc) s = .next t ∧ (lv, child, W8.tpoison (p.hdr 0)) ∈ t.bar.kids ∧
        (∀ k ∈ s.bar.kids, k ∈ t.bar.kids) ∧ t.rxq n 0 = (s.rxq n 0).eraseIdx i ∧ t.hive = s.hive ∧ t.step = s.step ∧
        s.keepsControl t) ∧
    (p.isBar 9 = true → s.bar.fireAt = none → s.bar.armed = false →
      ∃ t, exec (.releaseRx n cyc) s = .next t ∧ t.bar.armed = (s.eff F.swarmBarCtlExt == 1) ∧
        t.bar.poison = (s.bar.poison || W8.tpoison (p.hdr 0)) ∧ t.rxq n 0 = (s.rxq n 0).eraseIdx i ∧
        t.hive = s.hive ∧ t.step = s.step ∧ s.keepsControl t ∧
        (s.get (F.linkRttDelay n) < (p.hdr 0).w2.toNat →
          t.bar.fireAt = some (cyc + (p.hdr 0).w2.toNat - s.get (F.linkRttDelay n)) ∧ t.get F.swarmBarStatusLate = 0) ∧
        ((p.hdr 0).w2.toNat ≤ s.get (F.linkRttDelay n) →
          t.bar.fireAt = some (cyc + 1) ∧ t.get F.swarmBarStatusLate = 1 ∧
          t.word R.swarmBarLateCnt = s.word R.swarmBarLateCnt + 1))) ∧
  (∀ (s : State) (cyc f : Nat), s.atWork = true → s.errs = [] → s.bar.fireAt = some f → f ≤ cyc →
    (s.bar.open_ = true → s.bar.armed = false →
      s.barFired.pair R.swarmBarTLo = s.chip.now % 2 ^ 64 ∧ s.barFired.word R.swarmBarStep = BitVec.ofNat 32 s.bar.step ∧
      s.barFired.word R.swarmBarCnt = s.word R.swarmBarCnt + 1 ∧ s.barFired.bar.open_ = false ∧
      exec (.barrierFire cyc) s = .next ((s.barFired.emit .syncPulse).finishStep).actOnErrors) ∧
    ((s.bar.open_ = false ∨ s.bar.armed = true) →
      exec (.barrierFire cyc) s = .next ((s.updBar (fun b => { b with fireAt := none })).emit .syncPulse))) ∧
  ∀ s : State, s.clocked = true → s.cycleOver = true → s.errs = [] → s.bar.open_ = true → s.due tmBar = true →
    exec .barrierTimeout s = .next ((((s.startWake 4).disarm tmBar).inc R.swarmBarTmoCnt 1).err 0x10 0 none).actOnErrors ∧
    (s.jobState = jsIdle → ∃ t, exec .barrierTimeout s = .next t ∧
      t.word R.swarmBarTmoCnt = s.word R.swarmBarTmoCnt + 1 ∧ t.get F.rasErrLastSrc = 0x10)

/-- R1, R2: a command that names a die port, cluster, link, host port, pool or Keeper that the part does not have is no
event of it: the model stops by name. EVERY other command completes: `exec` answers a next state for every state and
operands whose instances the part has, so no command of the table is refused and none stops on any data. What that state
holds is what the other statements say. -/
def Obligations.AbsentInstancesAreNoEvents : Prop :=
  ∀ (s : State) (i : Instr),
    (s.hasInstance i = false → exec i s = .fault .absentInstance) ∧
    (s.hasInstance i = true → ∃ t, exec i s = .next t)
end

