-- ==== Sys2Proof/Laws/Maps.lean ====
section
/-! SUPPORT. Laws/Maps.lean: what reading and writing a sparse map do, and that every write keeps its canonical form. -/

namespace Sys2Proof.Machine

variable {α : Type}

/-! ### Reading a concatenation -/

theorem SMap.get_append_absent (d : Nat → α) (a b : SMap α) (k : Nat) (h : ∀ p ∈ a, p.1 ≠ k) :
    SMap.get d (a ++ b) k = SMap.get d b k := by
  induction a with
  | nil => rfl
  | cons p r ih =>
    obtain ⟨j, v⟩ := p
    have hj : j ≠ k := h (j, v) (by simp)
    simp only [List.cons_append, SMap.get, if_neg hj]
    exact ih (fun q hq => h q (by simp [hq]))

theorem SMap.get_absent (d : Nat → α) (a : SMap α) (k : Nat) (h : ∀ p ∈ a, p.1 ≠ k) : SMap.get d a k = d k := by
  have := SMap.get_append_absent d a [] k h
  simpa [SMap.get] using this

/-- Reading after a filter that keeps the entries of the key. -/
theorem SMap.get_filter (d : Nat → α) (q : Nat → Bool) (m rest : SMap α) (k : Nat) (hk : q k = true) :
    SMap.get d (m.filter (fun p => q p.1) ++ rest) k =
      if m.any (fun p => p.1 == k) then SMap.get d m k else SMap.get d rest k := by
  induction m with
  | nil => simp
  | cons p r ih =>
    obtain ⟨j, v⟩ := p
    by_cases hj : j = k
    · subst hj
      simp [SMap.get, hk]
    · have hb : (j == k) = false := by simp [hj]
      by_cases hq : q j = true
      · simp only [List.filter, hq, SMap.get, if_neg hj, List.cons_append, ih, List.any_cons, hb, Bool.false_or]
      · simp only [List.filter, hq, SMap.get, if_neg hj, ih, List.any_cons, hb, Bool.false_or]

theorem SMap.get_of_not_any (d : Nat → α) (m : SMap α) (k : Nat) (h : m.any (fun p => p.1 == k) = false) :
    SMap.get d m k = d k := by
  apply SMap.get_absent
  intro p hp hk
  have : m.any (fun p => p.1 == k) = true := List.any_eq_true.2 ⟨p, hp, by simp [hk]⟩
  simp [h] at this

theorem SMap.pairwise_filter (q : Nat × α → Bool) (m : SMap α) (h : (m.map (·.1)).Pairwise (· < ·)) :
    ((m.filter q).map (·.1)).Pairwise (· < ·) :=
  h.sublist (List.filter_sublist.map _)

variable [DecidableEq α]

theorem SMap.mem_entries {d : Nat → α} {k : Nat} {vs : List α} {p : Nat × α} (h : p ∈ SMap.entries d k vs) :
    k ≤ p.1 ∧ p.1 < k + vs.length ∧ p.2 ≠ d p.1 := by
  induction vs generalizing k with
  | nil => simp [SMap.entries] at h
  | cons v vs ih =>
    simp only [SMap.entries] at h
    split at h
    · have := ih h
      simp only [List.length_cons]
      exact ⟨by omega, by omega, this.2.2⟩
    · rename_i hv
      rcases List.mem_cons.1 h with h | h
      · subst h
        simp [hv]
      · have := ih h
        simp only [List.length_cons]
        exact ⟨by omega, by omega, this.2.2⟩

theorem SMap.get_entries (d : Nat → α) (k : Nat) (vs : List α) (i : Nat) (hi : i < vs.length) :
    SMap.get d (SMap.entries d k vs) (k + i) = vs[i] := by
  induction vs generalizing k i with
  | nil => simp at hi
  | cons v vs ih =>
    cases i with
    | zero =>
      simp only [SMap.entries]
      split
      · rename_i hv
        rw [SMap.get_absent]
        · simp [hv]
        · intro p hp
          have := SMap.mem_entries hp
          omega
      · simp [SMap.get]
    | succ i =>
      have e : k + (i + 1) = (k + 1) + i := by omega
      simp only [SMap.entries]
      split
      · rw [e]
        simpa using ih (k + 1) i (by simpa using hi)
      · rw [e]
        simp only [SMap.get]
        rw [if_neg (by omega)]
        simpa using ih (k + 1) i (by simpa using hi)

/-- Inside the written run a map reads what was written. -/
theorem SMap.get_write_in (d : Nat → α) (m : SMap α) (k : Nat) (vs : List α) (i : Nat) (hi : i < vs.length) :
    SMap.get d (SMap.write d m k vs) (k + i) = vs[i] := by
  unfold SMap.write
  rw [List.append_assoc, SMap.get_append_absent]
  · by_cases h : (SMap.entries d k vs).any (fun p => p.1 == k + i) = true
    · have := SMap.get_filter d (fun _ => true) (SMap.entries d k vs) (m.filter (fun p => decide (k + vs.length ≤ p.1)))
        (k + i) rfl
      simp only [List.filter_true, h, if_true] at this
      rw [this]
      exact SMap.get_entries d k vs i hi
    · have h' : (SMap.entries d k vs).any (fun p => p.1 == k + i) = false := (Bool.not_eq_true _).mp h
      have e := SMap.get_entries d k vs i hi
      rw [SMap.get_of_not_any d _ _ h'] at e
      rw [SMap.get_absent]
      · exact e
      · intro p hp
        rcases List.mem_append.1 hp with hp | hp
        · intro hk
          have : (SMap.entries d k vs).any (fun p => p.1 == k + i) = true := List.any_eq_true.2 ⟨p, hp, by simp [hk]⟩
          simp [h'] at this
        · have := (List.mem_filter.1 hp).2
          simp only [decide_eq_true_eq] at this
          omega
  · intro p hp
    have := (List.mem_filter.1 hp).2
    simp only [decide_eq_true_eq] at this
    omega

/-- Outside the written run a map reads what it read before. -/
theorem SMap.get_write_out (d : Nat → α) (m : SMap α) (k : Nat) (vs : List α) (j : Nat)
    (hj : j < k ∨ k + vs.length ≤ j) : SMap.get d (SMap.write d m k vs) j = SMap.get d m j := by
  unfold SMap.write
  rw [List.append_assoc]
  rcases hj with hj | hj
  · have h := SMap.get_filter d (fun x => decide (x < k)) m
      (SMap.entries d k vs ++ m.filter (fun p => decide (k + vs.length ≤ p.1))) j (by simpa using hj)
    rw [h]
    split
    · rfl
    · rename_i hn
      rw [SMap.get_of_not_any d m j ((Bool.not_eq_true _).mp hn), SMap.get_absent]
      intro p hp
      rcases List.mem_append.1 hp with hp | hp
      · have := SMap.mem_entries hp
        omega
      · have := (List.mem_filter.1 hp).2
        simp only [decide_eq_true_eq] at this
        omega
  · rw [SMap.get_append_absent, SMap.get_append_absent]
    · have h := SMap.get_filter d (fun x => decide (k + vs.length ≤ x)) m [] j (by simpa using hj)
      simp only [List.append_nil] at h
      rw [h]
      split
      · rfl
      · rename_i hn
        rw [SMap.get_of_not_any d m j ((Bool.not_eq_true _).mp hn)]
        rfl
    · intro p hp
      have := SMap.mem_entries hp
      omega
    · intro p hp
      have := (List.mem_filter.1 hp).2
      simp only [decide_eq_true_eq] at this
      omega

@[simp] theorem SMap.get_set_same (d : Nat → α) (m : SMap α) (k : Nat) (v : α) :
    SMap.get d (SMap.set d m k v) k = v := by
  have := SMap.get_write_in d m k [v] 0 (by simp)
  simpa [SMap.set] using this

theorem SMap.get_set_ne (d : Nat → α) (m : SMap α) (k j : Nat) (v : α) (h : j ≠ k) :
    SMap.get d (SMap.set d m k v) j = SMap.get d m j := by
  apply SMap.get_write_out
  simp only [List.length_cons, List.length_nil]
  omega

theorem SMap.get_set (d : Nat → α) (m : SMap α) (k j : Nat) (v : α) :
    SMap.get d (SMap.set d m k v) j = if j = k then v else SMap.get d m j := by
  split
  · rename_i h
    rw [h, SMap.get_set_same]
  · rename_i h
    exact SMap.get_set_ne d m k j v h

/-! ### The canonical form -/

/-- The canonical form, as a sorted list without defaults. -/
theorem SMap.wf_iff (d : Nat → α) (m : SMap α) :
    SMap.wf d m = true ↔ (m.map (·.1)).Pairwise (· < ·) ∧ ∀ p ∈ m, p.2 ≠ d p.1 := by
  induction m with
  | nil => simp [SMap.wf]
  | cons p r ih =>
    obtain ⟨k, v⟩ := p
    cases r with
    | nil => simp [SMap.wf]
    | cons q r =>
      obtain ⟨j, u⟩ := q
      simp only [SMap.wf, Bool.and_eq_true, decide_eq_true_eq, ih]
      simp only [List.map_cons, List.pairwise_cons, List.mem_cons, List.mem_map, forall_eq_or_imp]
      constructor
      · rintro ⟨⟨hv, hkj⟩, ⟨hj, hr⟩, hu, hs⟩
        refine ⟨⟨⟨hkj, ?_⟩, hj, hr⟩, hv, hu, hs⟩
        intro a ha
        exact Nat.lt_trans hkj (hj a ha)
      · rintro ⟨⟨⟨hkj, _⟩, hj, hr⟩, hv, hu, hs⟩
        exact ⟨⟨hv, hkj⟩, ⟨hj, hr⟩, hu, hs⟩

theorem SMap.pairwise_entries (d : Nat → α) (k : Nat) (vs : List α) :
    ((SMap.entries d k vs).map (·.1)).Pairwise (· < ·) := by
  induction vs generalizing k with
  | nil => simp [SMap.entries]
  | cons v vs ih =>
    simp only [SMap.entries]
    split
    · exact ih (k + 1)
    · simp only [List.map_cons, List.pairwise_cons]
      refine ⟨?_, ih (k + 1)⟩
      intro a ha
      obtain ⟨p, hp, rfl⟩ := List.mem_map.1 ha
      have := SMap.mem_entries hp
      omega

/-- Every write keeps the canonical form. -/
theorem SMap.write_wf (d : Nat → α) (m : SMap α) (k : Nat) (vs : List α) (h : SMap.wf d m = true) :
    SMap.wf d (SMap.write d m k vs) = true := by
  rw [SMap.wf_iff] at h ⊢
  obtain ⟨hs, hd⟩ := h
  constructor
  · unfold SMap.write
    simp only [List.map_append, List.pairwise_append]
    refine ⟨⟨SMap.pairwise_filter _ m hs, SMap.pairwise_entries d k vs, ?_⟩, SMap.pairwise_filter _ m hs, ?_⟩
    · intro a ha b hb
      obtain ⟨p, hp, rfl⟩ := List.mem_map.1 ha
      obtain ⟨r, hr, rfl⟩ := List.mem_map.1 hb
      have h1 := (List.mem_filter.1 hp).2
      have h2 := SMap.mem_entries hr
      simp only [decide_eq_true_eq] at h1
      omega
    · intro a ha b hb
      obtain ⟨r, hr, rfl⟩ := List.mem_map.1 hb
      have h2 := (List.mem_filter.1 hr).2
      simp only [decide_eq_true_eq] at h2
      rcases List.mem_append.1 ha with ha | ha
      · obtain ⟨p, hp, rfl⟩ := List.mem_map.1 ha
        have h1 := (List.mem_filter.1 hp).2
        simp only [decide_eq_true_eq] at h1
        omega
      · obtain ⟨p, hp, rfl⟩ := List.mem_map.1 ha
        have h1 := SMap.mem_entries hp
        omega
  · intro p hp
    unfold SMap.write at hp
    rcases List.mem_append.1 hp with hp | hp
    · rcases List.mem_append.1 hp with hp | hp
      · exact hd p (List.mem_filter.1 hp).1
      · exact (SMap.mem_entries hp).2.2
    · exact hd p (List.mem_filter.1 hp).1

theorem SMap.set_wf (d : Nat → α) (m : SMap α) (k : Nat) (v : α) (h : SMap.wf d m = true) :
    SMap.wf d (SMap.set d m k v) = true := SMap.write_wf d m k [v] h

/-- Removing entries keeps the canonical form. -/
theorem SMap.filter_wf (d : Nat → α) (m : SMap α) (q : Nat × α → Bool) (h : SMap.wf d m = true) :
    SMap.wf d (m.filter q) = true := by
  rw [SMap.wf_iff] at h ⊢
  exact ⟨SMap.pairwise_filter q m h.1, fun p hp => h.2 p (List.mem_filter.1 hp).1⟩

end Sys2Proof.Machine
end

