-- ==== Sys2Proof/Laws/State.lean ====
section
/-! SUPPORT. Laws/State.lean: one lemma per field of State and named update of it, each true by definition, so that no proof
unfolds a record update. -/

namespace Sys2Proof.Machine

/-! ### setWord -/

@[simp] theorem State.setWord_chip (s : State) (off : Nat) (w : Word) : (s.setWord off w).chip = s.chip := rfl
@[simp] theorem State.setWord_fuses (s : State) (off : Nat) (w : Word) : (s.setWord off w).fuses = s.fuses := rfl
@[simp] theorem State.setWord_regs (s : State) (off : Nat) (w : Word) : (s.setWord off w).regs =
    SMap.set (regReset s.fuses) s.regs (regHome off) w := rfl
@[simp] theorem State.setWord_effOld (s : State) (off : Nat) (w : Word) : (s.setWord off w).effOld = s.effOld := rfl
@[simp] theorem State.setWord_slotOld (s : State) (off : Nat) (w : Word) : (s.setWord off w).slotOld = s.slotOld := rfl
@[simp] theorem State.setWord_pairCap (s : State) (off : Nat) (w : Word) : (s.setWord off w).pairCap = s.pairCap := rfl
@[simp] theorem State.setWord_pairHeld (s : State) (off : Nat) (w : Word) : (s.setWord off w).pairHeld = s.pairHeld := rfl
@[simp] theorem State.setWord_rdata (s : State) (off : Nat) (w : Word) : (s.setWord off w).rdata = s.rdata := rfl
@[simp] theorem State.setWord_routes (s : State) (off : Nat) (w : Word) : (s.setWord off w).routes = s.routes := rfl
@[simp] theorem State.setWord_boot (s : State) (off : Nat) (w : Word) : (s.setWord off w).boot = s.boot := rfl
@[simp] theorem State.setWord_keep (s : State) (off : Nat) (w : Word) : (s.setWord off w).keep = s.keep := rfl
@[simp] theorem State.setWord_timers (s : State) (off : Nat) (w : Word) : (s.setWord off w).timers = s.timers := rfl
@[simp] theorem State.setWord_mbox (s : State) (off : Nat) (w : Word) : (s.setWord off w).mbox = s.mbox := rfl
@[simp] theorem State.setWord_mboxTag (s : State) (off : Nat) (w : Word) : (s.setWord off w).mboxTag = s.mboxTag := rfl
@[simp] theorem State.setWord_hive (s : State) (off : Nat) (w : Word) : (s.setWord off w).hive = s.hive := rfl
@[simp] theorem State.setWord_bus (s : State) (off : Nat) (w : Word) : (s.setWord off w).bus = s.bus := rfl
@[simp] theorem State.setWord_job (s : State) (off : Nat) (w : Word) : (s.setWord off w).job = s.job := rfl
@[simp] theorem State.setWord_step (s : State) (off : Nat) (w : Word) : (s.setWord off w).step = s.step := rfl
@[simp] theorem State.setWord_ports (s : State) (off : Nat) (w : Word) : (s.setWord off w).ports = s.ports := rfl
@[simp] theorem State.setWord_sieves (s : State) (off : Nat) (w : Word) : (s.setWord off w).sieves = s.sieves := rfl
@[simp] theorem State.setWord_clus (s : State) (off : Nat) (w : Word) : (s.setWord off w).clus = s.clus := rfl
@[simp] theorem State.setWord_tiles (s : State) (off : Nat) (w : Word) : (s.setWord off w).tiles = s.tiles := rfl
@[simp] theorem State.setWord_swarm (s : State) (off : Nat) (w : Word) : (s.setWord off w).swarm = s.swarm := rfl
@[simp] theorem State.setWord_bar (s : State) (off : Nat) (w : Word) : (s.setWord off w).bar = s.bar := rfl
@[simp] theorem State.setWord_roster (s : State) (off : Nat) (w : Word) : (s.setWord off w).roster = s.roster := rfl
@[simp] theorem State.setWord_links (s : State) (off : Nat) (w : Word) : (s.setWord off w).links = s.links := rfl
@[simp] theorem State.setWord_limbo (s : State) (off : Nat) (w : Word) : (s.setWord off w).limbo = s.limbo := rfl
@[simp] theorem State.setWord_power (s : State) (off : Nat) (w : Word) : (s.setWord off w).power = s.power := rfl
@[simp] theorem State.setWord_tel (s : State) (off : Nat) (w : Word) : (s.setWord off w).tel = s.tel := rfl
@[simp] theorem State.setWord_upset (s : State) (off : Nat) (w : Word) : (s.setWord off w).upset = s.upset := rfl
@[simp] theorem State.setWord_errs (s : State) (off : Nat) (w : Word) : (s.setWord off w).errs = s.errs := rfl
@[simp] theorem State.setWord_outs (s : State) (off : Nat) (w : Word) : (s.setWord off w).outs = s.outs := rfl
@[simp] theorem State.setWord_freeCtr (s : State) (off : Nat) (w : Word) : (s.setWord off w).freeCtr = s.freeCtr := rfl
@[simp] theorem State.setWord_pending (s : State) (off : Nat) (w : Word) : (s.setWord off w).pending = s.pending := rfl
@[simp] theorem State.setWord_expired (s : State) (off : Nat) (w : Word) : (s.setWord off w).expired = s.expired := rfl

/-! ### put -/

@[simp] theorem State.put_chip (s : State) (f : Fld) (v : Nat) : (s.put f v).chip = s.chip := rfl
@[simp] theorem State.put_fuses (s : State) (f : Fld) (v : Nat) : (s.put f v).fuses = s.fuses := rfl
@[simp] theorem State.put_regs (s : State) (f : Fld) (v : Nat) : (s.put f v).regs =
    SMap.set (regReset s.fuses) s.regs (regHome f.off) (setFld (s.word f.off) f.hi f.lo v) := rfl
@[simp] theorem State.put_effOld (s : State) (f : Fld) (v : Nat) : (s.put f v).effOld = s.effOld := rfl
@[simp] theorem State.put_slotOld (s : State) (f : Fld) (v : Nat) : (s.put f v).slotOld = s.slotOld := rfl
@[simp] theorem State.put_pairCap (s : State) (f : Fld) (v : Nat) : (s.put f v).pairCap = s.pairCap := rfl
@[simp] theorem State.put_pairHeld (s : State) (f : Fld) (v : Nat) : (s.put f v).pairHeld = s.pairHeld := rfl
@[simp] theorem State.put_rdata (s : State) (f : Fld) (v : Nat) : (s.put f v).rdata = s.rdata := rfl
@[simp] theorem State.put_routes (s : State) (f : Fld) (v : Nat) : (s.put f v).routes = s.routes := rfl
@[simp] theorem State.put_boot (s : State) (f : Fld) (v : Nat) : (s.put f v).boot = s.boot := rfl
@[simp] theorem State.put_keep (s : State) (f : Fld) (v : Nat) : (s.put f v).keep = s.keep := rfl
@[simp] theorem State.put_timers (s : State) (f : Fld) (v : Nat) : (s.put f v).timers = s.timers := rfl
@[simp] theorem State.put_mbox (s : State) (f : Fld) (v : Nat) : (s.put f v).mbox = s.mbox := rfl
@[simp] theorem State.put_mboxTag (s : State) (f : Fld) (v : Nat) : (s.put f v).mboxTag = s.mboxTag := rfl
@[simp] theorem State.put_hive (s : State) (f : Fld) (v : Nat) : (s.put f v).hive = s.hive := rfl
@[simp] theorem State.put_bus (s : State) (f : Fld) (v : Nat) : (s.put f v).bus = s.bus := rfl
@[simp] theorem State.put_job (s : State) (f : Fld) (v : Nat) : (s.put f v).job = s.job := rfl
@[simp] theorem State.put_step (s : State) (f : Fld) (v : Nat) : (s.put f v).step = s.step := rfl
@[simp] theorem State.put_ports (s : State) (f : Fld) (v : Nat) : (s.put f v).ports = s.ports := rfl
@[simp] theorem State.put_sieves (s : State) (f : Fld) (v : Nat) : (s.put f v).sieves = s.sieves := rfl
@[simp] theorem State.put_clus (s : State) (f : Fld) (v : Nat) : (s.put f v).clus = s.clus := rfl
@[simp] theorem State.put_tiles (s : State) (f : Fld) (v : Nat) : (s.put f v).tiles = s.tiles := rfl
@[simp] theorem State.put_swarm (s : State) (f : Fld) (v : Nat) : (s.put f v).swarm = s.swarm := rfl
@[simp] theorem State.put_bar (s : State) (f : Fld) (v : Nat) : (s.put f v).bar = s.bar := rfl
@[simp] theorem State.put_roster (s : State) (f : Fld) (v : Nat) : (s.put f v).roster = s.roster := rfl
@[simp] theorem State.put_links (s : State) (f : Fld) (v : Nat) : (s.put f v).links = s.links := rfl
@[simp] theorem State.put_limbo (s : State) (f : Fld) (v : Nat) : (s.put f v).limbo = s.limbo := rfl
@[simp] theorem State.put_power (s : State) (f : Fld) (v : Nat) : (s.put f v).power = s.power := rfl
@[simp] theorem State.put_tel (s : State) (f : Fld) (v : Nat) : (s.put f v).tel = s.tel := rfl
@[simp] theorem State.put_upset (s : State) (f : Fld) (v : Nat) : (s.put f v).upset = s.upset := rfl
@[simp] theorem State.put_errs (s : State) (f : Fld) (v : Nat) : (s.put f v).errs = s.errs := rfl
@[simp] theorem State.put_outs (s : State) (f : Fld) (v : Nat) : (s.put f v).outs = s.outs := rfl
@[simp] theorem State.put_freeCtr (s : State) (f : Fld) (v : Nat) : (s.put f v).freeCtr = s.freeCtr := rfl
@[simp] theorem State.put_pending (s : State) (f : Fld) (v : Nat) : (s.put f v).pending = s.pending := rfl
@[simp] theorem State.put_expired (s : State) (f : Fld) (v : Nat) : (s.put f v).expired = s.expired := rfl

/-! ### inc -/

@[simp] theorem State.inc_chip (s : State) (off n : Nat) : (s.inc off n).chip = s.chip := rfl
@[simp] theorem State.inc_fuses (s : State) (off n : Nat) : (s.inc off n).fuses = s.fuses := rfl
@[simp] theorem State.inc_regs (s : State) (off n : Nat) : (s.inc off n).regs =
    SMap.set (regReset s.fuses) s.regs (regHome off) (s.word off + BitVec.ofNat 32 n) := rfl
@[simp] theorem State.inc_effOld (s : State) (off n : Nat) : (s.inc off n).effOld = s.effOld := rfl
@[simp] theorem State.inc_slotOld (s : State) (off n : Nat) : (s.inc off n).slotOld = s.slotOld := rfl
@[simp] theorem State.inc_pairCap (s : State) (off n : Nat) : (s.inc off n).pairCap = s.pairCap := rfl
@[simp] theorem State.inc_pairHeld (s : State) (off n : Nat) : (s.inc off n).pairHeld = s.pairHeld := rfl
@[simp] theorem State.inc_rdata (s : State) (off n : Nat) : (s.inc off n).rdata = s.rdata := rfl
@[simp] theorem State.inc_routes (s : State) (off n : Nat) : (s.inc off n).routes = s.routes := rfl
@[simp] theorem State.inc_boot (s : State) (off n : Nat) : (s.inc off n).boot = s.boot := rfl
@[simp] theorem State.inc_keep (s : State) (off n : Nat) : (s.inc off n).keep = s.keep := rfl
@[simp] theorem State.inc_timers (s : State) (off n : Nat) : (s.inc off n).timers = s.timers := rfl
@[simp] theorem State.inc_mbox (s : State) (off n : Nat) : (s.inc off n).mbox = s.mbox := rfl
@[simp] theorem State.inc_mboxTag (s : State) (off n : Nat) : (s.inc off n).mboxTag = s.mboxTag := rfl
@[simp] theorem State.inc_hive (s : State) (off n : Nat) : (s.inc off n).hive = s.hive := rfl
@[simp] theorem State.inc_bus (s : State) (off n : Nat) : (s.inc off n).bus = s.bus := rfl
@[simp] theorem State.inc_job (s : State) (off n : Nat) : (s.inc off n).job = s.job := rfl
@[simp] theorem State.inc_step (s : State) (off n : Nat) : (s.inc off n).step = s.step := rfl
@[simp] theorem State.inc_ports (s : State) (off n : Nat) : (s.inc off n).ports = s.ports := rfl
@[simp] theorem State.inc_sieves (s : State) (off n : Nat) : (s.inc off n).sieves = s.sieves := rfl
@[simp] theorem State.inc_clus (s : State) (off n : Nat) : (s.inc off n).clus = s.clus := rfl
@[simp] theorem State.inc_tiles (s : State) (off n : Nat) : (s.inc off n).tiles = s.tiles := rfl
@[simp] theorem State.inc_swarm (s : State) (off n : Nat) : (s.inc off n).swarm = s.swarm := rfl
@[simp] theorem State.inc_bar (s : State) (off n : Nat) : (s.inc off n).bar = s.bar := rfl
@[simp] theorem State.inc_roster (s : State) (off n : Nat) : (s.inc off n).roster = s.roster := rfl
@[simp] theorem State.inc_links (s : State) (off n : Nat) : (s.inc off n).links = s.links := rfl
@[simp] theorem State.inc_limbo (s : State) (off n : Nat) : (s.inc off n).limbo = s.limbo := rfl
@[simp] theorem State.inc_power (s : State) (off n : Nat) : (s.inc off n).power = s.power := rfl
@[simp] theorem State.inc_tel (s : State) (off n : Nat) : (s.inc off n).tel = s.tel := rfl
@[simp] theorem State.inc_upset (s : State) (off n : Nat) : (s.inc off n).upset = s.upset := rfl
@[simp] theorem State.inc_errs (s : State) (off n : Nat) : (s.inc off n).errs = s.errs := rfl
@[simp] theorem State.inc_outs (s : State) (off n : Nat) : (s.inc off n).outs = s.outs := rfl
@[simp] theorem State.inc_freeCtr (s : State) (off n : Nat) : (s.inc off n).freeCtr = s.freeCtr := rfl
@[simp] theorem State.inc_pending (s : State) (off n : Nat) : (s.inc off n).pending = s.pending := rfl
@[simp] theorem State.inc_expired (s : State) (off n : Nat) : (s.inc off n).expired = s.expired := rfl

/-! ### incF -/

@[simp] theorem State.incF_chip (s : State) (f : Fld) (n : Nat) : (s.incF f n).chip = s.chip := rfl
@[simp] theorem State.incF_fuses (s : State) (f : Fld) (n : Nat) : (s.incF f n).fuses = s.fuses := rfl
@[simp] theorem State.incF_effOld (s : State) (f : Fld) (n : Nat) : (s.incF f n).effOld = s.effOld := rfl
@[simp] theorem State.incF_slotOld (s : State) (f : Fld) (n : Nat) : (s.incF f n).slotOld = s.slotOld := rfl
@[simp] theorem State.incF_pairCap (s : State) (f : Fld) (n : Nat) : (s.incF f n).pairCap = s.pairCap := rfl
@[simp] theorem State.incF_pairHeld (s : State) (f : Fld) (n : Nat) : (s.incF f n).pairHeld = s.pairHeld := rfl
@[simp] theorem State.incF_rdata (s : State) (f : Fld) (n : Nat) : (s.incF f n).rdata = s.rdata := rfl
@[simp] theorem State.incF_routes (s : State) (f : Fld) (n : Nat) : (s.incF f n).routes = s.routes := rfl
@[simp] theorem State.incF_boot (s : State) (f : Fld) (n : Nat) : (s.incF f n).boot = s.boot := rfl
@[simp] theorem State.incF_keep (s : State) (f : Fld) (n : Nat) : (s.incF f n).keep = s.keep := rfl
@[simp] theorem State.incF_timers (s : State) (f : Fld) (n : Nat) : (s.incF f n).timers = s.timers := rfl
@[simp] theorem State.incF_mbox (s : State) (f : Fld) (n : Nat) : (s.incF f n).mbox = s.mbox := rfl
@[simp] theorem State.incF_mboxTag (s : State) (f : Fld) (n : Nat) : (s.incF f n).mboxTag = s.mboxTag := rfl
@[simp] theorem State.incF_hive (s : State) (f : Fld) (n : Nat) : (s.incF f n).hive = s.hive := rfl
@[simp] theorem State.incF_bus (s : State) (f : Fld) (n : Nat) : (s.incF f n).bus = s.bus := rfl
@[simp] theorem State.incF_job (s : State) (f : Fld) (n : Nat) : (s.incF f n).job = s.job := rfl
@[simp] theorem State.incF_step (s : State) (f : Fld) (n : Nat) : (s.incF f n).step = s.step := rfl
@[simp] theorem State.incF_ports (s : State) (f : Fld) (n : Nat) : (s.incF f n).ports = s.ports := rfl
@[simp] theorem State.incF_sieves (s : State) (f : Fld) (n : Nat) : (s.incF f n).sieves = s.sieves := rfl
@[simp] theorem State.incF_clus (s : State) (f : Fld) (n : Nat) : (s.incF f n).clus = s.clus := rfl
@[simp] theorem State.incF_tiles (s : State) (f : Fld) (n : Nat) : (s.incF f n).tiles = s.tiles := rfl
@[simp] theorem State.incF_swarm (s : State) (f : Fld) (n : Nat) : (s.incF f n).swarm = s.swarm := rfl
@[simp] theorem State.incF_bar (s : State) (f : Fld) (n : Nat) : (s.incF f n).bar = s.bar := rfl
@[simp] theorem State.incF_roster (s : State) (f : Fld) (n : Nat) : (s.incF f n).roster = s.roster := rfl
@[simp] theorem State.incF_links (s : State) (f : Fld) (n : Nat) : (s.incF f n).links = s.links := rfl
@[simp] theorem State.incF_limbo (s : State) (f : Fld) (n : Nat) : (s.incF f n).limbo = s.limbo := rfl
@[simp] theorem State.incF_power (s : State) (f : Fld) (n : Nat) : (s.incF f n).power = s.power := rfl
@[simp] theorem State.incF_tel (s : State) (f : Fld) (n : Nat) : (s.incF f n).tel = s.tel := rfl
@[simp] theorem State.incF_upset (s : State) (f : Fld) (n : Nat) : (s.incF f n).upset = s.upset := rfl
@[simp] theorem State.incF_errs (s : State) (f : Fld) (n : Nat) : (s.incF f n).errs = s.errs := rfl
@[simp] theorem State.incF_outs (s : State) (f : Fld) (n : Nat) : (s.incF f n).outs = s.outs := rfl
@[simp] theorem State.incF_freeCtr (s : State) (f : Fld) (n : Nat) : (s.incF f n).freeCtr = s.freeCtr := rfl
@[simp] theorem State.incF_pending (s : State) (f : Fld) (n : Nat) : (s.incF f n).pending = s.pending := rfl
@[simp] theorem State.incF_expired (s : State) (f : Fld) (n : Nat) : (s.incF f n).expired = s.expired := rfl

/-! ### setNum -/

@[simp] theorem State.setNum_chip (s : State) (off v : Nat) : (s.setNum off v).chip = s.chip := rfl
@[simp] theorem State.setNum_fuses (s : State) (off v : Nat) : (s.setNum off v).fuses = s.fuses := rfl
@[simp] theorem State.setNum_effOld (s : State) (off v : Nat) : (s.setNum off v).effOld = s.effOld := rfl
@[simp] theorem State.setNum_slotOld (s : State) (off v : Nat) : (s.setNum off v).slotOld = s.slotOld := rfl
@[simp] theorem State.setNum_pairCap (s : State) (off v : Nat) : (s.setNum off v).pairCap = s.pairCap := rfl
@[simp] theorem State.setNum_pairHeld (s : State) (off v : Nat) : (s.setNum off v).pairHeld = s.pairHeld := rfl
@[simp] theorem State.setNum_rdata (s : State) (off v : Nat) : (s.setNum off v).rdata = s.rdata := rfl
@[simp] theorem State.setNum_routes (s : State) (off v : Nat) : (s.setNum off v).routes = s.routes := rfl
@[simp] theorem State.setNum_boot (s : State) (off v : Nat) : (s.setNum off v).boot = s.boot := rfl
@[simp] theorem State.setNum_keep (s : State) (off v : Nat) : (s.setNum off v).keep = s.keep := rfl
@[simp] theorem State.setNum_timers (s : State) (off v : Nat) : (s.setNum off v).timers = s.timers := rfl
@[simp] theorem State.setNum_mbox (s : State) (off v : Nat) : (s.setNum off v).mbox = s.mbox := rfl
@[simp] theorem State.setNum_mboxTag (s : State) (off v : Nat) : (s.setNum off v).mboxTag = s.mboxTag := rfl
@[simp] theorem State.setNum_hive (s : State) (off v : Nat) : (s.setNum off v).hive = s.hive := rfl
@[simp] theorem State.setNum_bus (s : State) (off v : Nat) : (s.setNum off v).bus = s.bus := rfl
@[simp] theorem State.setNum_job (s : State) (off v : Nat) : (s.setNum off v).job = s.job := rfl
@[simp] theorem State.setNum_step (s : State) (off v : Nat) : (s.setNum off v).step = s.step := rfl
@[simp] theorem State.setNum_ports (s : State) (off v : Nat) : (s.setNum off v).ports = s.ports := rfl
@[simp] theorem State.setNum_sieves (s : State) (off v : Nat) : (s.setNum off v).sieves = s.sieves := rfl
@[simp] theorem State.setNum_clus (s : State) (off v : Nat) : (s.setNum off v).clus = s.clus := rfl
@[simp] theorem State.setNum_tiles (s : State) (off v : Nat) : (s.setNum off v).tiles = s.tiles := rfl
@[simp] theorem State.setNum_swarm (s : State) (off v : Nat) : (s.setNum off v).swarm = s.swarm := rfl
@[simp] theorem State.setNum_bar (s : State) (off v : Nat) : (s.setNum off v).bar = s.bar := rfl
@[simp] theorem State.setNum_roster (s : State) (off v : Nat) : (s.setNum off v).roster = s.roster := rfl
@[simp] theorem State.setNum_links (s : State) (off v : Nat) : (s.setNum off v).links = s.links := rfl
@[simp] theorem State.setNum_limbo (s : State) (off v : Nat) : (s.setNum off v).limbo = s.limbo := rfl
@[simp] theorem State.setNum_power (s : State) (off v : Nat) : (s.setNum off v).power = s.power := rfl
@[simp] theorem State.setNum_tel (s : State) (off v : Nat) : (s.setNum off v).tel = s.tel := rfl
@[simp] theorem State.setNum_upset (s : State) (off v : Nat) : (s.setNum off v).upset = s.upset := rfl
@[simp] theorem State.setNum_errs (s : State) (off v : Nat) : (s.setNum off v).errs = s.errs := rfl
@[simp] theorem State.setNum_outs (s : State) (off v : Nat) : (s.setNum off v).outs = s.outs := rfl
@[simp] theorem State.setNum_freeCtr (s : State) (off v : Nat) : (s.setNum off v).freeCtr = s.freeCtr := rfl
@[simp] theorem State.setNum_pending (s : State) (off v : Nat) : (s.setNum off v).pending = s.pending := rfl
@[simp] theorem State.setNum_expired (s : State) (off v : Nat) : (s.setNum off v).expired = s.expired := rfl

/-! ### setPair -/

@[simp] theorem State.setPair_chip (s : State) (lo v : Nat) : (s.setPair lo v).chip = s.chip := rfl
@[simp] theorem State.setPair_fuses (s : State) (lo v : Nat) : (s.setPair lo v).fuses = s.fuses := rfl
@[simp] theorem State.setPair_effOld (s : State) (lo v : Nat) : (s.setPair lo v).effOld = s.effOld := rfl
@[simp] theorem State.setPair_slotOld (s : State) (lo v : Nat) : (s.setPair lo v).slotOld = s.slotOld := rfl
@[simp] theorem State.setPair_pairCap (s : State) (lo v : Nat) : (s.setPair lo v).pairCap = s.pairCap := rfl
@[simp] theorem State.setPair_pairHeld (s : State) (lo v : Nat) : (s.setPair lo v).pairHeld = s.pairHeld := rfl
@[simp] theorem State.setPair_rdata (s : State) (lo v : Nat) : (s.setPair lo v).rdata = s.rdata := rfl
@[simp] theorem State.setPair_routes (s : State) (lo v : Nat) : (s.setPair lo v).routes = s.routes := rfl
@[simp] theorem State.setPair_boot (s : State) (lo v : Nat) : (s.setPair lo v).boot = s.boot := rfl
@[simp] theorem State.setPair_keep (s : State) (lo v : Nat) : (s.setPair lo v).keep = s.keep := rfl
@[simp] theorem State.setPair_timers (s : State) (lo v : Nat) : (s.setPair lo v).timers = s.timers := rfl
@[simp] theorem State.setPair_mbox (s : State) (lo v : Nat) : (s.setPair lo v).mbox = s.mbox := rfl
@[simp] theorem State.setPair_mboxTag (s : State) (lo v : Nat) : (s.setPair lo v).mboxTag = s.mboxTag := rfl
@[simp] theorem State.setPair_hive (s : State) (lo v : Nat) : (s.setPair lo v).hive = s.hive := rfl
@[simp] theorem State.setPair_bus (s : State) (lo v : Nat) : (s.setPair lo v).bus = s.bus := rfl
@[simp] theorem State.setPair_job (s : State) (lo v : Nat) : (s.setPair lo v).job = s.job := rfl
@[simp] theorem State.setPair_step (s : State) (lo v : Nat) : (s.setPair lo v).step = s.step := rfl
@[simp] theorem State.setPair_ports (s : State) (lo v : Nat) : (s.setPair lo v).ports = s.ports := rfl
@[simp] theorem State.setPair_sieves (s : State) (lo v : Nat) : (s.setPair lo v).sieves = s.sieves := rfl
@[simp] theorem State.setPair_clus (s : State) (lo v : Nat) : (s.setPair lo v).clus = s.clus := rfl
@[simp] theorem State.setPair_tiles (s : State) (lo v : Nat) : (s.setPair lo v).tiles = s.tiles := rfl
@[simp] theorem State.setPair_swarm (s : State) (lo v : Nat) : (s.setPair lo v).swarm = s.swarm := rfl
@[simp] theorem State.setPair_bar (s : State) (lo v : Nat) : (s.setPair lo v).bar = s.bar := rfl
@[simp] theorem State.setPair_roster (s : State) (lo v : Nat) : (s.setPair lo v).roster = s.roster := rfl
@[simp] theorem State.setPair_links (s : State) (lo v : Nat) : (s.setPair lo v).links = s.links := rfl
@[simp] theorem State.setPair_limbo (s : State) (lo v : Nat) : (s.setPair lo v).limbo = s.limbo := rfl
@[simp] theorem State.setPair_power (s : State) (lo v : Nat) : (s.setPair lo v).power = s.power := rfl
@[simp] theorem State.setPair_tel (s : State) (lo v : Nat) : (s.setPair lo v).tel = s.tel := rfl
@[simp] theorem State.setPair_upset (s : State) (lo v : Nat) : (s.setPair lo v).upset = s.upset := rfl
@[simp] theorem State.setPair_errs (s : State) (lo v : Nat) : (s.setPair lo v).errs = s.errs := rfl
@[simp] theorem State.setPair_outs (s : State) (lo v : Nat) : (s.setPair lo v).outs = s.outs := rfl
@[simp] theorem State.setPair_freeCtr (s : State) (lo v : Nat) : (s.setPair lo v).freeCtr = s.freeCtr := rfl
@[simp] theorem State.setPair_pending (s : State) (lo v : Nat) : (s.setPair lo v).pending = s.pending := rfl
@[simp] theorem State.setPair_expired (s : State) (lo v : Nat) : (s.setPair lo v).expired = s.expired := rfl

/-! ### settleRegs -/

@[simp] theorem State.settleRegs_chip (s : State) : (s.settleRegs).chip = s.chip := rfl
@[simp] theorem State.settleRegs_fuses (s : State) : (s.settleRegs).fuses = s.fuses := rfl
@[simp] theorem State.settleRegs_regs (s : State) : (s.settleRegs).regs = s.regs := rfl
@[simp] theorem State.settleRegs_effOld (s : State) : (s.settleRegs).effOld =
    s.effOld.filter (fun p => sieveCtlReg p.1) := rfl
@[simp] theorem State.settleRegs_slotOld (s : State) : (s.settleRegs).slotOld = s.slotOld := rfl
@[simp] theorem State.settleRegs_pairCap (s : State) : (s.settleRegs).pairCap = s.pairCap := rfl
@[simp] theorem State.settleRegs_pairHeld (s : State) : (s.settleRegs).pairHeld = s.pairHeld := rfl
@[simp] theorem State.settleRegs_rdata (s : State) : (s.settleRegs).rdata = s.rdata := rfl
@[simp] theorem State.settleRegs_routes (s : State) : (s.settleRegs).routes = s.routes := rfl
@[simp] theorem State.settleRegs_boot (s : State) : (s.settleRegs).boot = s.boot := rfl
@[simp] theorem State.settleRegs_keep (s : State) : (s.settleRegs).keep = s.keep := rfl
@[simp] theorem State.settleRegs_timers (s : State) : (s.settleRegs).timers = s.timers := rfl
@[simp] theorem State.settleRegs_mbox (s : State) : (s.settleRegs).mbox = s.mbox := rfl
@[simp] theorem State.settleRegs_mboxTag (s : State) : (s.settleRegs).mboxTag = s.mboxTag := rfl
@[simp] theorem State.settleRegs_hive (s : State) : (s.settleRegs).hive = s.hive := rfl
@[simp] theorem State.settleRegs_bus (s : State) : (s.settleRegs).bus = s.bus := rfl
@[simp] theorem State.settleRegs_job (s : State) : (s.settleRegs).job = s.job := rfl
@[simp] theorem State.settleRegs_step (s : State) : (s.settleRegs).step = s.step := rfl
@[simp] theorem State.settleRegs_ports (s : State) : (s.settleRegs).ports = s.ports := rfl
@[simp] theorem State.settleRegs_sieves (s : State) : (s.settleRegs).sieves = s.sieves := rfl
@[simp] theorem State.settleRegs_clus (s : State) : (s.settleRegs).clus = s.clus := rfl
@[simp] theorem State.settleRegs_tiles (s : State) : (s.settleRegs).tiles = s.tiles := rfl
@[simp] theorem State.settleRegs_swarm (s : State) : (s.settleRegs).swarm = s.swarm := rfl
@[simp] theorem State.settleRegs_bar (s : State) : (s.settleRegs).bar = s.bar := rfl
@[simp] theorem State.settleRegs_roster (s : State) : (s.settleRegs).roster = s.roster := rfl
@[simp] theorem State.settleRegs_links (s : State) : (s.settleRegs).links = s.links := rfl
@[simp] theorem State.settleRegs_limbo (s : State) : (s.settleRegs).limbo = s.limbo := rfl
@[simp] theorem State.settleRegs_power (s : State) : (s.settleRegs).power = s.power := rfl
@[simp] theorem State.settleRegs_tel (s : State) : (s.settleRegs).tel = s.tel := rfl
@[simp] theorem State.settleRegs_upset (s : State) : (s.settleRegs).upset = s.upset := rfl
@[simp] theorem State.settleRegs_errs (s : State) : (s.settleRegs).errs = s.errs := rfl
@[simp] theorem State.settleRegs_outs (s : State) : (s.settleRegs).outs = s.outs := rfl
@[simp] theorem State.settleRegs_freeCtr (s : State) : (s.settleRegs).freeCtr = s.freeCtr := rfl
@[simp] theorem State.settleRegs_pending (s : State) : (s.settleRegs).pending = s.pending := rfl
@[simp] theorem State.settleRegs_expired (s : State) : (s.settleRegs).expired = s.expired := rfl

/-! ### settleReg -/

@[simp] theorem State.settleReg_chip (s : State) (off : Nat) : (s.settleReg off).chip = s.chip := rfl
@[simp] theorem State.settleReg_fuses (s : State) (off : Nat) : (s.settleReg off).fuses = s.fuses := rfl
@[simp] theorem State.settleReg_regs (s : State) (off : Nat) : (s.settleReg off).regs = s.regs := rfl
@[simp] theorem State.settleReg_effOld (s : State) (off : Nat) : (s.settleReg off).effOld =
    SMap.set noneAt s.effOld off none := rfl
@[simp] theorem State.settleReg_slotOld (s : State) (off : Nat) : (s.settleReg off).slotOld = s.slotOld := rfl
@[simp] theorem State.settleReg_pairCap (s : State) (off : Nat) : (s.settleReg off).pairCap = s.pairCap := rfl
@[simp] theorem State.settleReg_pairHeld (s : State) (off : Nat) : (s.settleReg off).pairHeld = s.pairHeld := rfl
@[simp] theorem State.settleReg_rdata (s : State) (off : Nat) : (s.settleReg off).rdata = s.rdata := rfl
@[simp] theorem State.settleReg_routes (s : State) (off : Nat) : (s.settleReg off).routes = s.routes := rfl
@[simp] theorem State.settleReg_boot (s : State) (off : Nat) : (s.settleReg off).boot = s.boot := rfl
@[simp] theorem State.settleReg_keep (s : State) (off : Nat) : (s.settleReg off).keep = s.keep := rfl
@[simp] theorem State.settleReg_timers (s : State) (off : Nat) : (s.settleReg off).timers = s.timers := rfl
@[simp] theorem State.settleReg_mbox (s : State) (off : Nat) : (s.settleReg off).mbox = s.mbox := rfl
@[simp] theorem State.settleReg_mboxTag (s : State) (off : Nat) : (s.settleReg off).mboxTag = s.mboxTag := rfl
@[simp] theorem State.settleReg_hive (s : State) (off : Nat) : (s.settleReg off).hive = s.hive := rfl
@[simp] theorem State.settleReg_bus (s : State) (off : Nat) : (s.settleReg off).bus = s.bus := rfl
@[simp] theorem State.settleReg_job (s : State) (off : Nat) : (s.settleReg off).job = s.job := rfl
@[simp] theorem State.settleReg_step (s : State) (off : Nat) : (s.settleReg off).step = s.step := rfl
@[simp] theorem State.settleReg_ports (s : State) (off : Nat) : (s.settleReg off).ports = s.ports := rfl
@[simp] theorem State.settleReg_sieves (s : State) (off : Nat) : (s.settleReg off).sieves = s.sieves := rfl
@[simp] theorem State.settleReg_clus (s : State) (off : Nat) : (s.settleReg off).clus = s.clus := rfl
@[simp] theorem State.settleReg_tiles (s : State) (off : Nat) : (s.settleReg off).tiles = s.tiles := rfl
@[simp] theorem State.settleReg_swarm (s : State) (off : Nat) : (s.settleReg off).swarm = s.swarm := rfl
@[simp] theorem State.settleReg_bar (s : State) (off : Nat) : (s.settleReg off).bar = s.bar := rfl
@[simp] theorem State.settleReg_roster (s : State) (off : Nat) : (s.settleReg off).roster = s.roster := rfl
@[simp] theorem State.settleReg_links (s : State) (off : Nat) : (s.settleReg off).links = s.links := rfl
@[simp] theorem State.settleReg_limbo (s : State) (off : Nat) : (s.settleReg off).limbo = s.limbo := rfl
@[simp] theorem State.settleReg_power (s : State) (off : Nat) : (s.settleReg off).power = s.power := rfl
@[simp] theorem State.settleReg_tel (s : State) (off : Nat) : (s.settleReg off).tel = s.tel := rfl
@[simp] theorem State.settleReg_upset (s : State) (off : Nat) : (s.settleReg off).upset = s.upset := rfl
@[simp] theorem State.settleReg_errs (s : State) (off : Nat) : (s.settleReg off).errs = s.errs := rfl
@[simp] theorem State.settleReg_outs (s : State) (off : Nat) : (s.settleReg off).outs = s.outs := rfl
@[simp] theorem State.settleReg_freeCtr (s : State) (off : Nat) : (s.settleReg off).freeCtr = s.freeCtr := rfl
@[simp] theorem State.settleReg_pending (s : State) (off : Nat) : (s.settleReg off).pending = s.pending := rfl
@[simp] theorem State.settleReg_expired (s : State) (off : Nat) : (s.settleReg off).expired = s.expired := rfl

/-! ### emit -/

@[simp] theorem State.emit_chip (s : State) (o : Out) : (s.emit o).chip = s.chip := rfl
@[simp] theorem State.emit_fuses (s : State) (o : Out) : (s.emit o).fuses = s.fuses := rfl
@[simp] theorem State.emit_regs (s : State) (o : Out) : (s.emit o).regs = s.regs := rfl
@[simp] theorem State.emit_effOld (s : State) (o : Out) : (s.emit o).effOld = s.effOld := rfl
@[simp] theorem State.emit_slotOld (s : State) (o : Out) : (s.emit o).slotOld = s.slotOld := rfl
@[simp] theorem State.emit_pairCap (s : State) (o : Out) : (s.emit o).pairCap = s.pairCap := rfl
@[simp] theorem State.emit_pairHeld (s : State) (o : Out) : (s.emit o).pairHeld = s.pairHeld := rfl
@[simp] theorem State.emit_rdata (s : State) (o : Out) : (s.emit o).rdata = s.rdata := rfl
@[simp] theorem State.emit_routes (s : State) (o : Out) : (s.emit o).routes = s.routes := rfl
@[simp] theorem State.emit_boot (s : State) (o : Out) : (s.emit o).boot = s.boot := rfl
@[simp] theorem State.emit_keep (s : State) (o : Out) : (s.emit o).keep = s.keep := rfl
@[simp] theorem State.emit_timers (s : State) (o : Out) : (s.emit o).timers = s.timers := rfl
@[simp] theorem State.emit_mbox (s : State) (o : Out) : (s.emit o).mbox = s.mbox := rfl
@[simp] theorem State.emit_mboxTag (s : State) (o : Out) : (s.emit o).mboxTag = s.mboxTag := rfl
@[simp] theorem State.emit_hive (s : State) (o : Out) : (s.emit o).hive = s.hive := rfl
@[simp] theorem State.emit_bus (s : State) (o : Out) : (s.emit o).bus = s.bus := rfl
@[simp] theorem State.emit_job (s : State) (o : Out) : (s.emit o).job = s.job := rfl
@[simp] theorem State.emit_step (s : State) (o : Out) : (s.emit o).step = s.step := rfl
@[simp] theorem State.emit_ports (s : State) (o : Out) : (s.emit o).ports = s.ports := rfl
@[simp] theorem State.emit_sieves (s : State) (o : Out) : (s.emit o).sieves = s.sieves := rfl
@[simp] theorem State.emit_clus (s : State) (o : Out) : (s.emit o).clus = s.clus := rfl
@[simp] theorem State.emit_tiles (s : State) (o : Out) : (s.emit o).tiles = s.tiles := rfl
@[simp] theorem State.emit_swarm (s : State) (o : Out) : (s.emit o).swarm = s.swarm := rfl
@[simp] theorem State.emit_bar (s : State) (o : Out) : (s.emit o).bar = s.bar := rfl
@[simp] theorem State.emit_roster (s : State) (o : Out) : (s.emit o).roster = s.roster := rfl
@[simp] theorem State.emit_links (s : State) (o : Out) : (s.emit o).links = s.links := rfl
@[simp] theorem State.emit_limbo (s : State) (o : Out) : (s.emit o).limbo = s.limbo := rfl
@[simp] theorem State.emit_power (s : State) (o : Out) : (s.emit o).power = s.power := rfl
@[simp] theorem State.emit_tel (s : State) (o : Out) : (s.emit o).tel = s.tel := rfl
@[simp] theorem State.emit_upset (s : State) (o : Out) : (s.emit o).upset = s.upset := rfl
@[simp] theorem State.emit_errs (s : State) (o : Out) : (s.emit o).errs = s.errs := rfl
@[simp] theorem State.emit_outs (s : State) (o : Out) : (s.emit o).outs =
    o :: s.outs := rfl
@[simp] theorem State.emit_freeCtr (s : State) (o : Out) : (s.emit o).freeCtr = s.freeCtr := rfl
@[simp] theorem State.emit_pending (s : State) (o : Out) : (s.emit o).pending = s.pending := rfl
@[simp] theorem State.emit_expired (s : State) (o : Out) : (s.emit o).expired = s.expired := rfl

/-! ### err -/

@[simp] theorem State.err_chip (s : State) (src unit : Nat) (x : Option Nat) : (s.err src unit x).chip = s.chip := rfl
@[simp] theorem State.err_fuses (s : State) (src unit : Nat) (x : Option Nat) : (s.err src unit x).fuses = s.fuses := rfl
@[simp] theorem State.err_regs (s : State) (src unit : Nat) (x : Option Nat) : (s.err src unit x).regs = s.regs := rfl
@[simp] theorem State.err_effOld (s : State) (src unit : Nat) (x : Option Nat) : (s.err src unit x).effOld = s.effOld := rfl
@[simp] theorem State.err_slotOld (s : State) (src unit : Nat) (x : Option Nat) : (s.err src unit x).slotOld = s.slotOld := rfl
@[simp] theorem State.err_pairCap (s : State) (src unit : Nat) (x : Option Nat) : (s.err src unit x).pairCap = s.pairCap := rfl
@[simp] theorem State.err_pairHeld (s : State) (src unit : Nat) (x : Option Nat) : (s.err src unit x).pairHeld = s.pairHeld := rfl
@[simp] theorem State.err_rdata (s : State) (src unit : Nat) (x : Option Nat) : (s.err src unit x).rdata = s.rdata := rfl
@[simp] theorem State.err_routes (s : State) (src unit : Nat) (x : Option Nat) : (s.err src unit x).routes = s.routes := rfl
@[simp] theorem State.err_boot (s : State) (src unit : Nat) (x : Option Nat) : (s.err src unit x).boot = s.boot := rfl
@[simp] theorem State.err_keep (s : State) (src unit : Nat) (x : Option Nat) : (s.err src unit x).keep = s.keep := rfl
@[simp] theorem State.err_timers (s : State) (src unit : Nat) (x : Option Nat) : (s.err src unit x).timers = s.timers := rfl
@[simp] theorem State.err_mbox (s : State) (src unit : Nat) (x : Option Nat) : (s.err src unit x).mbox = s.mbox := rfl
@[simp] theorem State.err_mboxTag (s : State) (src unit : Nat) (x : Option Nat) : (s.err src unit x).mboxTag = s.mboxTag := rfl
@[simp] theorem State.err_hive (s : State) (src unit : Nat) (x : Option Nat) : (s.err src unit x).hive = s.hive := rfl
@[simp] theorem State.err_bus (s : State) (src unit : Nat) (x : Option Nat) : (s.err src unit x).bus = s.bus := rfl
@[simp] theorem State.err_job (s : State) (src unit : Nat) (x : Option Nat) : (s.err src unit x).job = s.job := rfl
@[simp] theorem State.err_step (s : State) (src unit : Nat) (x : Option Nat) : (s.err src unit x).step = s.step := rfl
@[simp] theorem State.err_ports (s : State) (src unit : Nat) (x : Option Nat) : (s.err src unit x).ports = s.ports := rfl
@[simp] theorem State.err_sieves (s : State) (src unit : Nat) (x : Option Nat) : (s.err src unit x).sieves = s.sieves := rfl
@[simp] theorem State.err_clus (s : State) (src unit : Nat) (x : Option Nat) : (s.err src unit x).clus = s.clus := rfl
@[simp] theorem State.err_tiles (s : State) (src unit : Nat) (x : Option Nat) : (s.err src unit x).tiles = s.tiles := rfl
@[simp] theorem State.err_swarm (s : State) (src unit : Nat) (x : Option Nat) : (s.err src unit x).swarm = s.swarm := rfl
@[simp] theorem State.err_bar (s : State) (src unit : Nat) (x : Option Nat) : (s.err src unit x).bar = s.bar := rfl
@[simp] theorem State.err_roster (s : State) (src unit : Nat) (x : Option Nat) : (s.err src unit x).roster = s.roster := rfl
@[simp] theorem State.err_links (s : State) (src unit : Nat) (x : Option Nat) : (s.err src unit x).links = s.links := rfl
@[simp] theorem State.err_limbo (s : State) (src unit : Nat) (x : Option Nat) : (s.err src unit x).limbo = s.limbo := rfl
@[simp] theorem State.err_power (s : State) (src unit : Nat) (x : Option Nat) : (s.err src unit x).power = s.power := rfl
@[simp] theorem State.err_tel (s : State) (src unit : Nat) (x : Option Nat) : (s.err src unit x).tel = s.tel := rfl
@[simp] theorem State.err_upset (s : State) (src unit : Nat) (x : Option Nat) : (s.err src unit x).upset = s.upset := rfl
@[simp] theorem State.err_errs (s : State) (src unit : Nat) (x : Option Nat) : (s.err src unit x).errs =
    ⟨src, unit, x⟩ :: s.errs := rfl
@[simp] theorem State.err_outs (s : State) (src unit : Nat) (x : Option Nat) : (s.err src unit x).outs = s.outs := rfl
@[simp] theorem State.err_freeCtr (s : State) (src unit : Nat) (x : Option Nat) : (s.err src unit x).freeCtr = s.freeCtr := rfl
@[simp] theorem State.err_pending (s : State) (src unit : Nat) (x : Option Nat) : (s.err src unit x).pending = s.pending := rfl
@[simp] theorem State.err_expired (s : State) (src unit : Nat) (x : Option Nat) : (s.err src unit x).expired = s.expired := rfl

/-! ### setTimer -/

@[simp] theorem State.setTimer_chip (s : State) (i : Nat) (x : Timer) : (s.setTimer i x).chip = s.chip := rfl
@[simp] theorem State.setTimer_fuses (s : State) (i : Nat) (x : Timer) : (s.setTimer i x).fuses = s.fuses := rfl
@[simp] theorem State.setTimer_regs (s : State) (i : Nat) (x : Timer) : (s.setTimer i x).regs = s.regs := rfl
@[simp] theorem State.setTimer_effOld (s : State) (i : Nat) (x : Timer) : (s.setTimer i x).effOld = s.effOld := rfl
@[simp] theorem State.setTimer_slotOld (s : State) (i : Nat) (x : Timer) : (s.setTimer i x).slotOld = s.slotOld := rfl
@[simp] theorem State.setTimer_pairCap (s : State) (i : Nat) (x : Timer) : (s.setTimer i x).pairCap = s.pairCap := rfl
@[simp] theorem State.setTimer_pairHeld (s : State) (i : Nat) (x : Timer) : (s.setTimer i x).pairHeld = s.pairHeld := rfl
@[simp] theorem State.setTimer_rdata (s : State) (i : Nat) (x : Timer) : (s.setTimer i x).rdata = s.rdata := rfl
@[simp] theorem State.setTimer_routes (s : State) (i : Nat) (x : Timer) : (s.setTimer i x).routes = s.routes := rfl
@[simp] theorem State.setTimer_boot (s : State) (i : Nat) (x : Timer) : (s.setTimer i x).boot = s.boot := rfl
@[simp] theorem State.setTimer_keep (s : State) (i : Nat) (x : Timer) : (s.setTimer i x).keep = s.keep := rfl
@[simp] theorem State.setTimer_timers (s : State) (i : Nat) (x : Timer) : (s.setTimer i x).timers =
    updAt s.timers i (fun _ => x) := rfl
@[simp] theorem State.setTimer_mbox (s : State) (i : Nat) (x : Timer) : (s.setTimer i x).mbox = s.mbox := rfl
@[simp] theorem State.setTimer_mboxTag (s : State) (i : Nat) (x : Timer) : (s.setTimer i x).mboxTag = s.mboxTag := rfl
@[simp] theorem State.setTimer_hive (s : State) (i : Nat) (x : Timer) : (s.setTimer i x).hive = s.hive := rfl
@[simp] theorem State.setTimer_bus (s : State) (i : Nat) (x : Timer) : (s.setTimer i x).bus = s.bus := rfl
@[simp] theorem State.setTimer_job (s : State) (i : Nat) (x : Timer) : (s.setTimer i x).job = s.job := rfl
@[simp] theorem State.setTimer_step (s : State) (i : Nat) (x : Timer) : (s.setTimer i x).step = s.step := rfl
@[simp] theorem State.setTimer_ports (s : State) (i : Nat) (x : Timer) : (s.setTimer i x).ports = s.ports := rfl
@[simp] theorem State.setTimer_sieves (s : State) (i : Nat) (x : Timer) : (s.setTimer i x).sieves = s.sieves := rfl
@[simp] theorem State.setTimer_clus (s : State) (i : Nat) (x : Timer) : (s.setTimer i x).clus = s.clus := rfl
@[simp] theorem State.setTimer_tiles (s : State) (i : Nat) (x : Timer) : (s.setTimer i x).tiles = s.tiles := rfl
@[simp] theorem State.setTimer_swarm (s : State) (i : Nat) (x : Timer) : (s.setTimer i x).swarm = s.swarm := rfl
@[simp] theorem State.setTimer_bar (s : State) (i : Nat) (x : Timer) : (s.setTimer i x).bar = s.bar := rfl
@[simp] theorem State.setTimer_roster (s : State) (i : Nat) (x : Timer) : (s.setTimer i x).roster = s.roster := rfl
@[simp] theorem State.setTimer_links (s : State) (i : Nat) (x : Timer) : (s.setTimer i x).links = s.links := rfl
@[simp] theorem State.setTimer_limbo (s : State) (i : Nat) (x : Timer) : (s.setTimer i x).limbo = s.limbo := rfl
@[simp] theorem State.setTimer_power (s : State) (i : Nat) (x : Timer) : (s.setTimer i x).power = s.power := rfl
@[simp] theorem State.setTimer_tel (s : State) (i : Nat) (x : Timer) : (s.setTimer i x).tel = s.tel := rfl
@[simp] theorem State.setTimer_upset (s : State) (i : Nat) (x : Timer) : (s.setTimer i x).upset = s.upset := rfl
@[simp] theorem State.setTimer_errs (s : State) (i : Nat) (x : Timer) : (s.setTimer i x).errs = s.errs := rfl
@[simp] theorem State.setTimer_outs (s : State) (i : Nat) (x : Timer) : (s.setTimer i x).outs = s.outs := rfl
@[simp] theorem State.setTimer_freeCtr (s : State) (i : Nat) (x : Timer) : (s.setTimer i x).freeCtr = s.freeCtr := rfl
@[simp] theorem State.setTimer_pending (s : State) (i : Nat) (x : Timer) : (s.setTimer i x).pending = s.pending := rfl
@[simp] theorem State.setTimer_expired (s : State) (i : Nat) (x : Timer) : (s.setTimer i x).expired = s.expired := rfl

/-! ### updBoot -/

@[simp] theorem State.updBoot_chip (s : State) (f : Boot → Boot) : (s.updBoot f).chip = s.chip := rfl
@[simp] theorem State.updBoot_fuses (s : State) (f : Boot → Boot) : (s.updBoot f).fuses = s.fuses := rfl
@[simp] theorem State.updBoot_regs (s : State) (f : Boot → Boot) : (s.updBoot f).regs = s.regs := rfl
@[simp] theorem State.updBoot_effOld (s : State) (f : Boot → Boot) : (s.updBoot f).effOld = s.effOld := rfl
@[simp] theorem State.updBoot_slotOld (s : State) (f : Boot → Boot) : (s.updBoot f).slotOld = s.slotOld := rfl
@[simp] theorem State.updBoot_pairCap (s : State) (f : Boot → Boot) : (s.updBoot f).pairCap = s.pairCap := rfl
@[simp] theorem State.updBoot_pairHeld (s : State) (f : Boot → Boot) : (s.updBoot f).pairHeld = s.pairHeld := rfl
@[simp] theorem State.updBoot_rdata (s : State) (f : Boot → Boot) : (s.updBoot f).rdata = s.rdata := rfl
@[simp] theorem State.updBoot_routes (s : State) (f : Boot → Boot) : (s.updBoot f).routes = s.routes := rfl
@[simp] theorem State.updBoot_boot (s : State) (f : Boot → Boot) : (s.updBoot f).boot =
    f s.boot := rfl
@[simp] theorem State.updBoot_keep (s : State) (f : Boot → Boot) : (s.updBoot f).keep = s.keep := rfl
@[simp] theorem State.updBoot_timers (s : State) (f : Boot → Boot) : (s.updBoot f).timers = s.timers := rfl
@[simp] theorem State.updBoot_mbox (s : State) (f : Boot → Boot) : (s.updBoot f).mbox = s.mbox := rfl
@[simp] theorem State.updBoot_mboxTag (s : State) (f : Boot → Boot) : (s.updBoot f).mboxTag = s.mboxTag := rfl
@[simp] theorem State.updBoot_hive (s : State) (f : Boot → Boot) : (s.updBoot f).hive = s.hive := rfl
@[simp] theorem State.updBoot_bus (s : State) (f : Boot → Boot) : (s.updBoot f).bus = s.bus := rfl
@[simp] theorem State.updBoot_job (s : State) (f : Boot → Boot) : (s.updBoot f).job = s.job := rfl
@[simp] theorem State.updBoot_step (s : State) (f : Boot → Boot) : (s.updBoot f).step = s.step := rfl
@[simp] theorem State.updBoot_ports (s : State) (f : Boot → Boot) : (s.updBoot f).ports = s.ports := rfl
@[simp] theorem State.updBoot_sieves (s : State) (f : Boot → Boot) : (s.updBoot f).sieves = s.sieves := rfl
@[simp] theorem State.updBoot_clus (s : State) (f : Boot → Boot) : (s.updBoot f).clus = s.clus := rfl
@[simp] theorem State.updBoot_tiles (s : State) (f : Boot → Boot) : (s.updBoot f).tiles = s.tiles := rfl
@[simp] theorem State.updBoot_swarm (s : State) (f : Boot → Boot) : (s.updBoot f).swarm = s.swarm := rfl
@[simp] theorem State.updBoot_bar (s : State) (f : Boot → Boot) : (s.updBoot f).bar = s.bar := rfl
@[simp] theorem State.updBoot_roster (s : State) (f : Boot → Boot) : (s.updBoot f).roster = s.roster := rfl
@[simp] theorem State.updBoot_links (s : State) (f : Boot → Boot) : (s.updBoot f).links = s.links := rfl
@[simp] theorem State.updBoot_limbo (s : State) (f : Boot → Boot) : (s.updBoot f).limbo = s.limbo := rfl
@[simp] theorem State.updBoot_power (s : State) (f : Boot → Boot) : (s.updBoot f).power = s.power := rfl
@[simp] theorem State.updBoot_tel (s : State) (f : Boot → Boot) : (s.updBoot f).tel = s.tel := rfl
@[simp] theorem State.updBoot_upset (s : State) (f : Boot → Boot) : (s.updBoot f).upset = s.upset := rfl
@[simp] theorem State.updBoot_errs (s : State) (f : Boot → Boot) : (s.updBoot f).errs = s.errs := rfl
@[simp] theorem State.updBoot_outs (s : State) (f : Boot → Boot) : (s.updBoot f).outs = s.outs := rfl
@[simp] theorem State.updBoot_freeCtr (s : State) (f : Boot → Boot) : (s.updBoot f).freeCtr = s.freeCtr := rfl
@[simp] theorem State.updBoot_pending (s : State) (f : Boot → Boot) : (s.updBoot f).pending = s.pending := rfl
@[simp] theorem State.updBoot_expired (s : State) (f : Boot → Boot) : (s.updBoot f).expired = s.expired := rfl

/-! ### updChip -/

@[simp] theorem State.updChip_chip (s : State) (f : Chip → Chip) : (s.updChip f).chip =
    f s.chip := rfl
@[simp] theorem State.updChip_fuses (s : State) (f : Chip → Chip) : (s.updChip f).fuses = s.fuses := rfl
@[simp] theorem State.updChip_regs (s : State) (f : Chip → Chip) : (s.updChip f).regs = s.regs := rfl
@[simp] theorem State.updChip_effOld (s : State) (f : Chip → Chip) : (s.updChip f).effOld = s.effOld := rfl
@[simp] theorem State.updChip_slotOld (s : State) (f : Chip → Chip) : (s.updChip f).slotOld = s.slotOld := rfl
@[simp] theorem State.updChip_pairCap (s : State) (f : Chip → Chip) : (s.updChip f).pairCap = s.pairCap := rfl
@[simp] theorem State.updChip_pairHeld (s : State) (f : Chip → Chip) : (s.updChip f).pairHeld = s.pairHeld := rfl
@[simp] theorem State.updChip_rdata (s : State) (f : Chip → Chip) : (s.updChip f).rdata = s.rdata := rfl
@[simp] theorem State.updChip_routes (s : State) (f : Chip → Chip) : (s.updChip f).routes = s.routes := rfl
@[simp] theorem State.updChip_boot (s : State) (f : Chip → Chip) : (s.updChip f).boot = s.boot := rfl
@[simp] theorem State.updChip_keep (s : State) (f : Chip → Chip) : (s.updChip f).keep = s.keep := rfl
@[simp] theorem State.updChip_timers (s : State) (f : Chip → Chip) : (s.updChip f).timers = s.timers := rfl
@[simp] theorem State.updChip_mbox (s : State) (f : Chip → Chip) : (s.updChip f).mbox = s.mbox := rfl
@[simp] theorem State.updChip_mboxTag (s : State) (f : Chip → Chip) : (s.updChip f).mboxTag = s.mboxTag := rfl
@[simp] theorem State.updChip_hive (s : State) (f : Chip → Chip) : (s.updChip f).hive = s.hive := rfl
@[simp] theorem State.updChip_bus (s : State) (f : Chip → Chip) : (s.updChip f).bus = s.bus := rfl
@[simp] theorem State.updChip_job (s : State) (f : Chip → Chip) : (s.updChip f).job = s.job := rfl
@[simp] theorem State.updChip_step (s : State) (f : Chip → Chip) : (s.updChip f).step = s.step := rfl
@[simp] theorem State.updChip_ports (s : State) (f : Chip → Chip) : (s.updChip f).ports = s.ports := rfl
@[simp] theorem State.updChip_sieves (s : State) (f : Chip → Chip) : (s.updChip f).sieves = s.sieves := rfl
@[simp] theorem State.updChip_clus (s : State) (f : Chip → Chip) : (s.updChip f).clus = s.clus := rfl
@[simp] theorem State.updChip_tiles (s : State) (f : Chip → Chip) : (s.updChip f).tiles = s.tiles := rfl
@[simp] theorem State.updChip_swarm (s : State) (f : Chip → Chip) : (s.updChip f).swarm = s.swarm := rfl
@[simp] theorem State.updChip_bar (s : State) (f : Chip → Chip) : (s.updChip f).bar = s.bar := rfl
@[simp] theorem State.updChip_roster (s : State) (f : Chip → Chip) : (s.updChip f).roster = s.roster := rfl
@[simp] theorem State.updChip_links (s : State) (f : Chip → Chip) : (s.updChip f).links = s.links := rfl
@[simp] theorem State.updChip_limbo (s : State) (f : Chip → Chip) : (s.updChip f).limbo = s.limbo := rfl
@[simp] theorem State.updChip_power (s : State) (f : Chip → Chip) : (s.updChip f).power = s.power := rfl
@[simp] theorem State.updChip_tel (s : State) (f : Chip → Chip) : (s.updChip f).tel = s.tel := rfl
@[simp] theorem State.updChip_upset (s : State) (f : Chip → Chip) : (s.updChip f).upset = s.upset := rfl
@[simp] theorem State.updChip_errs (s : State) (f : Chip → Chip) : (s.updChip f).errs = s.errs := rfl
@[simp] theorem State.updChip_outs (s : State) (f : Chip → Chip) : (s.updChip f).outs = s.outs := rfl
@[simp] theorem State.updChip_freeCtr (s : State) (f : Chip → Chip) : (s.updChip f).freeCtr = s.freeCtr := rfl
@[simp] theorem State.updChip_pending (s : State) (f : Chip → Chip) : (s.updChip f).pending = s.pending := rfl
@[simp] theorem State.updChip_expired (s : State) (f : Chip → Chip) : (s.updChip f).expired = s.expired := rfl

/-! ### updJob -/

@[simp] theorem State.updJob_chip (s : State) (f : Job → Job) : (s.updJob f).chip = s.chip := rfl
@[simp] theorem State.updJob_fuses (s : State) (f : Job → Job) : (s.updJob f).fuses = s.fuses := rfl
@[simp] theorem State.updJob_regs (s : State) (f : Job → Job) : (s.updJob f).regs = s.regs := rfl
@[simp] theorem State.updJob_effOld (s : State) (f : Job → Job) : (s.updJob f).effOld = s.effOld := rfl
@[simp] theorem State.updJob_slotOld (s : State) (f : Job → Job) : (s.updJob f).slotOld = s.slotOld := rfl
@[simp] theorem State.updJob_pairCap (s : State) (f : Job → Job) : (s.updJob f).pairCap = s.pairCap := rfl
@[simp] theorem State.updJob_pairHeld (s : State) (f : Job → Job) : (s.updJob f).pairHeld = s.pairHeld := rfl
@[simp] theorem State.updJob_rdata (s : State) (f : Job → Job) : (s.updJob f).rdata = s.rdata := rfl
@[simp] theorem State.updJob_routes (s : State) (f : Job → Job) : (s.updJob f).routes = s.routes := rfl
@[simp] theorem State.updJob_boot (s : State) (f : Job → Job) : (s.updJob f).boot = s.boot := rfl
@[simp] theorem State.updJob_keep (s : State) (f : Job → Job) : (s.updJob f).keep = s.keep := rfl
@[simp] theorem State.updJob_timers (s : State) (f : Job → Job) : (s.updJob f).timers = s.timers := rfl
@[simp] theorem State.updJob_mbox (s : State) (f : Job → Job) : (s.updJob f).mbox = s.mbox := rfl
@[simp] theorem State.updJob_mboxTag (s : State) (f : Job → Job) : (s.updJob f).mboxTag = s.mboxTag := rfl
@[simp] theorem State.updJob_hive (s : State) (f : Job → Job) : (s.updJob f).hive = s.hive := rfl
@[simp] theorem State.updJob_bus (s : State) (f : Job → Job) : (s.updJob f).bus = s.bus := rfl
@[simp] theorem State.updJob_job (s : State) (f : Job → Job) : (s.updJob f).job =
    f s.job := rfl
@[simp] theorem State.updJob_step (s : State) (f : Job → Job) : (s.updJob f).step = s.step := rfl
@[simp] theorem State.updJob_ports (s : State) (f : Job → Job) : (s.updJob f).ports = s.ports := rfl
@[simp] theorem State.updJob_sieves (s : State) (f : Job → Job) : (s.updJob f).sieves = s.sieves := rfl
@[simp] theorem State.updJob_clus (s : State) (f : Job → Job) : (s.updJob f).clus = s.clus := rfl
@[simp] theorem State.updJob_tiles (s : State) (f : Job → Job) : (s.updJob f).tiles = s.tiles := rfl
@[simp] theorem State.updJob_swarm (s : State) (f : Job → Job) : (s.updJob f).swarm = s.swarm := rfl
@[simp] theorem State.updJob_bar (s : State) (f : Job → Job) : (s.updJob f).bar = s.bar := rfl
@[simp] theorem State.updJob_roster (s : State) (f : Job → Job) : (s.updJob f).roster = s.roster := rfl
@[simp] theorem State.updJob_links (s : State) (f : Job → Job) : (s.updJob f).links = s.links := rfl
@[simp] theorem State.updJob_limbo (s : State) (f : Job → Job) : (s.updJob f).limbo = s.limbo := rfl
@[simp] theorem State.updJob_power (s : State) (f : Job → Job) : (s.updJob f).power = s.power := rfl
@[simp] theorem State.updJob_tel (s : State) (f : Job → Job) : (s.updJob f).tel = s.tel := rfl
@[simp] theorem State.updJob_upset (s : State) (f : Job → Job) : (s.updJob f).upset = s.upset := rfl
@[simp] theorem State.updJob_errs (s : State) (f : Job → Job) : (s.updJob f).errs = s.errs := rfl
@[simp] theorem State.updJob_outs (s : State) (f : Job → Job) : (s.updJob f).outs = s.outs := rfl
@[simp] theorem State.updJob_freeCtr (s : State) (f : Job → Job) : (s.updJob f).freeCtr = s.freeCtr := rfl
@[simp] theorem State.updJob_pending (s : State) (f : Job → Job) : (s.updJob f).pending = s.pending := rfl
@[simp] theorem State.updJob_expired (s : State) (f : Job → Job) : (s.updJob f).expired = s.expired := rfl

/-! ### updStep -/

@[simp] theorem State.updStep_chip (s : State) (f : StepSt → StepSt) : (s.updStep f).chip = s.chip := rfl
@[simp] theorem State.updStep_fuses (s : State) (f : StepSt → StepSt) : (s.updStep f).fuses = s.fuses := rfl
@[simp] theorem State.updStep_regs (s : State) (f : StepSt → StepSt) : (s.updStep f).regs = s.regs := rfl
@[simp] theorem State.updStep_effOld (s : State) (f : StepSt → StepSt) : (s.updStep f).effOld = s.effOld := rfl
@[simp] theorem State.updStep_slotOld (s : State) (f : StepSt → StepSt) : (s.updStep f).slotOld = s.slotOld := rfl
@[simp] theorem State.updStep_pairCap (s : State) (f : StepSt → StepSt) : (s.updStep f).pairCap = s.pairCap := rfl
@[simp] theorem State.updStep_pairHeld (s : State) (f : StepSt → StepSt) : (s.updStep f).pairHeld = s.pairHeld := rfl
@[simp] theorem State.updStep_rdata (s : State) (f : StepSt → StepSt) : (s.updStep f).rdata = s.rdata := rfl
@[simp] theorem State.updStep_routes (s : State) (f : StepSt → StepSt) : (s.updStep f).routes = s.routes := rfl
@[simp] theorem State.updStep_boot (s : State) (f : StepSt → StepSt) : (s.updStep f).boot = s.boot := rfl
@[simp] theorem State.updStep_keep (s : State) (f : StepSt → StepSt) : (s.updStep f).keep = s.keep := rfl
@[simp] theorem State.updStep_timers (s : State) (f : StepSt → StepSt) : (s.updStep f).timers = s.timers := rfl
@[simp] theorem State.updStep_mbox (s : State) (f : StepSt → StepSt) : (s.updStep f).mbox = s.mbox := rfl
@[simp] theorem State.updStep_mboxTag (s : State) (f : StepSt → StepSt) : (s.updStep f).mboxTag = s.mboxTag := rfl
@[simp] theorem State.updStep_hive (s : State) (f : StepSt → StepSt) : (s.updStep f).hive = s.hive := rfl
@[simp] theorem State.updStep_bus (s : State) (f : StepSt → StepSt) : (s.updStep f).bus = s.bus := rfl
@[simp] theorem State.updStep_job (s : State) (f : StepSt → StepSt) : (s.updStep f).job = s.job := rfl
@[simp] theorem State.updStep_step (s : State) (f : StepSt → StepSt) : (s.updStep f).step =
    f s.step := rfl
@[simp] theorem State.updStep_ports (s : State) (f : StepSt → StepSt) : (s.updStep f).ports = s.ports := rfl
@[simp] theorem State.updStep_sieves (s : State) (f : StepSt → StepSt) : (s.updStep f).sieves = s.sieves := rfl
@[simp] theorem State.updStep_clus (s : State) (f : StepSt → StepSt) : (s.updStep f).clus = s.clus := rfl
@[simp] theorem State.updStep_tiles (s : State) (f : StepSt → StepSt) : (s.updStep f).tiles = s.tiles := rfl
@[simp] theorem State.updStep_swarm (s : State) (f : StepSt → StepSt) : (s.updStep f).swarm = s.swarm := rfl
@[simp] theorem State.updStep_bar (s : State) (f : StepSt → StepSt) : (s.updStep f).bar = s.bar := rfl
@[simp] theorem State.updStep_roster (s : State) (f : StepSt → StepSt) : (s.updStep f).roster = s.roster := rfl
@[simp] theorem State.updStep_links (s : State) (f : StepSt → StepSt) : (s.updStep f).links = s.links := rfl
@[simp] theorem State.updStep_limbo (s : State) (f : StepSt → StepSt) : (s.updStep f).limbo = s.limbo := rfl
@[simp] theorem State.updStep_power (s : State) (f : StepSt → StepSt) : (s.updStep f).power = s.power := rfl
@[simp] theorem State.updStep_tel (s : State) (f : StepSt → StepSt) : (s.updStep f).tel = s.tel := rfl
@[simp] theorem State.updStep_upset (s : State) (f : StepSt → StepSt) : (s.updStep f).upset = s.upset := rfl
@[simp] theorem State.updStep_errs (s : State) (f : StepSt → StepSt) : (s.updStep f).errs = s.errs := rfl
@[simp] theorem State.updStep_outs (s : State) (f : StepSt → StepSt) : (s.updStep f).outs = s.outs := rfl
@[simp] theorem State.updStep_freeCtr (s : State) (f : StepSt → StepSt) : (s.updStep f).freeCtr = s.freeCtr := rfl
@[simp] theorem State.updStep_pending (s : State) (f : StepSt → StepSt) : (s.updStep f).pending = s.pending := rfl
@[simp] theorem State.updStep_expired (s : State) (f : StepSt → StepSt) : (s.updStep f).expired = s.expired := rfl

/-! ### updCnt -/

@[simp] theorem State.updCnt_chip (s : State) (f : AskCnt → AskCnt) : (s.updCnt f).chip = s.chip := rfl
@[simp] theorem State.updCnt_fuses (s : State) (f : AskCnt → AskCnt) : (s.updCnt f).fuses = s.fuses := rfl
@[simp] theorem State.updCnt_regs (s : State) (f : AskCnt → AskCnt) : (s.updCnt f).regs = s.regs := rfl
@[simp] theorem State.updCnt_effOld (s : State) (f : AskCnt → AskCnt) : (s.updCnt f).effOld = s.effOld := rfl
@[simp] theorem State.updCnt_slotOld (s : State) (f : AskCnt → AskCnt) : (s.updCnt f).slotOld = s.slotOld := rfl
@[simp] theorem State.updCnt_pairCap (s : State) (f : AskCnt → AskCnt) : (s.updCnt f).pairCap = s.pairCap := rfl
@[simp] theorem State.updCnt_pairHeld (s : State) (f : AskCnt → AskCnt) : (s.updCnt f).pairHeld = s.pairHeld := rfl
@[simp] theorem State.updCnt_rdata (s : State) (f : AskCnt → AskCnt) : (s.updCnt f).rdata = s.rdata := rfl
@[simp] theorem State.updCnt_routes (s : State) (f : AskCnt → AskCnt) : (s.updCnt f).routes = s.routes := rfl
@[simp] theorem State.updCnt_boot (s : State) (f : AskCnt → AskCnt) : (s.updCnt f).boot = s.boot := rfl
@[simp] theorem State.updCnt_keep (s : State) (f : AskCnt → AskCnt) : (s.updCnt f).keep = s.keep := rfl
@[simp] theorem State.updCnt_timers (s : State) (f : AskCnt → AskCnt) : (s.updCnt f).timers = s.timers := rfl
@[simp] theorem State.updCnt_mbox (s : State) (f : AskCnt → AskCnt) : (s.updCnt f).mbox = s.mbox := rfl
@[simp] theorem State.updCnt_mboxTag (s : State) (f : AskCnt → AskCnt) : (s.updCnt f).mboxTag = s.mboxTag := rfl
@[simp] theorem State.updCnt_hive (s : State) (f : AskCnt → AskCnt) : (s.updCnt f).hive = s.hive := rfl
@[simp] theorem State.updCnt_bus (s : State) (f : AskCnt → AskCnt) : (s.updCnt f).bus = s.bus := rfl
@[simp] theorem State.updCnt_job (s : State) (f : AskCnt → AskCnt) : (s.updCnt f).job = s.job := rfl
@[simp] theorem State.updCnt_step (s : State) (f : AskCnt → AskCnt) : (s.updCnt f).step =
    { s.step with cnt := f s.step.cnt } := rfl
@[simp] theorem State.updCnt_ports (s : State) (f : AskCnt → AskCnt) : (s.updCnt f).ports = s.ports := rfl
@[simp] theorem State.updCnt_sieves (s : State) (f : AskCnt → AskCnt) : (s.updCnt f).sieves = s.sieves := rfl
@[simp] theorem State.updCnt_clus (s : State) (f : AskCnt → AskCnt) : (s.updCnt f).clus = s.clus := rfl
@[simp] theorem State.updCnt_tiles (s : State) (f : AskCnt → AskCnt) : (s.updCnt f).tiles = s.tiles := rfl
@[simp] theorem State.updCnt_swarm (s : State) (f : AskCnt → AskCnt) : (s.updCnt f).swarm = s.swarm := rfl
@[simp] theorem State.updCnt_bar (s : State) (f : AskCnt → AskCnt) : (s.updCnt f).bar = s.bar := rfl
@[simp] theorem State.updCnt_roster (s : State) (f : AskCnt → AskCnt) : (s.updCnt f).roster = s.roster := rfl
@[simp] theorem State.updCnt_links (s : State) (f : AskCnt → AskCnt) : (s.updCnt f).links = s.links := rfl
@[simp] theorem State.updCnt_limbo (s : State) (f : AskCnt → AskCnt) : (s.updCnt f).limbo = s.limbo := rfl
@[simp] theorem State.updCnt_power (s : State) (f : AskCnt → AskCnt) : (s.updCnt f).power = s.power := rfl
@[simp] theorem State.updCnt_tel (s : State) (f : AskCnt → AskCnt) : (s.updCnt f).tel = s.tel := rfl
@[simp] theorem State.updCnt_upset (s : State) (f : AskCnt → AskCnt) : (s.updCnt f).upset = s.upset := rfl
@[simp] theorem State.updCnt_errs (s : State) (f : AskCnt → AskCnt) : (s.updCnt f).errs = s.errs := rfl
@[simp] theorem State.updCnt_outs (s : State) (f : AskCnt → AskCnt) : (s.updCnt f).outs = s.outs := rfl
@[simp] theorem State.updCnt_freeCtr (s : State) (f : AskCnt → AskCnt) : (s.updCnt f).freeCtr = s.freeCtr := rfl
@[simp] theorem State.updCnt_pending (s : State) (f : AskCnt → AskCnt) : (s.updCnt f).pending = s.pending := rfl
@[simp] theorem State.updCnt_expired (s : State) (f : AskCnt → AskCnt) : (s.updCnt f).expired = s.expired := rfl

/-! ### updRoster -/

@[simp] theorem State.updRoster_chip (s : State) (f : Roster → Roster) : (s.updRoster f).chip = s.chip := rfl
@[simp] theorem State.updRoster_fuses (s : State) (f : Roster → Roster) : (s.updRoster f).fuses = s.fuses := rfl
@[simp] theorem State.updRoster_regs (s : State) (f : Roster → Roster) : (s.updRoster f).regs = s.regs := rfl
@[simp] theorem State.updRoster_effOld (s : State) (f : Roster → Roster) : (s.updRoster f).effOld = s.effOld := rfl
@[simp] theorem State.updRoster_slotOld (s : State) (f : Roster → Roster) : (s.updRoster f).slotOld = s.slotOld := rfl
@[simp] theorem State.updRoster_pairCap (s : State) (f : Roster → Roster) : (s.updRoster f).pairCap = s.pairCap := rfl
@[simp] theorem State.updRoster_pairHeld (s : State) (f : Roster → Roster) : (s.updRoster f).pairHeld = s.pairHeld := rfl
@[simp] theorem State.updRoster_rdata (s : State) (f : Roster → Roster) : (s.updRoster f).rdata = s.rdata := rfl
@[simp] theorem State.updRoster_routes (s : State) (f : Roster → Roster) : (s.updRoster f).routes = s.routes := rfl
@[simp] theorem State.updRoster_boot (s : State) (f : Roster → Roster) : (s.updRoster f).boot = s.boot := rfl
@[simp] theorem State.updRoster_keep (s : State) (f : Roster → Roster) : (s.updRoster f).keep = s.keep := rfl
@[simp] theorem State.updRoster_timers (s : State) (f : Roster → Roster) : (s.updRoster f).timers = s.timers := rfl
@[simp] theorem State.updRoster_mbox (s : State) (f : Roster → Roster) : (s.updRoster f).mbox = s.mbox := rfl
@[simp] theorem State.updRoster_mboxTag (s : State) (f : Roster → Roster) : (s.updRoster f).mboxTag = s.mboxTag := rfl
@[simp] theorem State.updRoster_hive (s : State) (f : Roster → Roster) : (s.updRoster f).hive = s.hive := rfl
@[simp] theorem State.updRoster_bus (s : State) (f : Roster → Roster) : (s.updRoster f).bus = s.bus := rfl
@[simp] theorem State.updRoster_job (s : State) (f : Roster → Roster) : (s.updRoster f).job = s.job := rfl
@[simp] theorem State.updRoster_step (s : State) (f : Roster → Roster) : (s.updRoster f).step = s.step := rfl
@[simp] theorem State.updRoster_ports (s : State) (f : Roster → Roster) : (s.updRoster f).ports = s.ports := rfl
@[simp] theorem State.updRoster_sieves (s : State) (f : Roster → Roster) : (s.updRoster f).sieves = s.sieves := rfl
@[simp] theorem State.updRoster_clus (s : State) (f : Roster → Roster) : (s.updRoster f).clus = s.clus := rfl
@[simp] theorem State.updRoster_tiles (s : State) (f : Roster → Roster) : (s.updRoster f).tiles = s.tiles := rfl
@[simp] theorem State.updRoster_swarm (s : State) (f : Roster → Roster) : (s.updRoster f).swarm = s.swarm := rfl
@[simp] theorem State.updRoster_bar (s : State) (f : Roster → Roster) : (s.updRoster f).bar = s.bar := rfl
@[simp] theorem State.updRoster_roster (s : State) (f : Roster → Roster) : (s.updRoster f).roster =
    f s.roster := rfl
@[simp] theorem State.updRoster_links (s : State) (f : Roster → Roster) : (s.updRoster f).links = s.links := rfl
@[simp] theorem State.updRoster_limbo (s : State) (f : Roster → Roster) : (s.updRoster f).limbo = s.limbo := rfl
@[simp] theorem State.updRoster_power (s : State) (f : Roster → Roster) : (s.updRoster f).power = s.power := rfl
@[simp] theorem State.updRoster_tel (s : State) (f : Roster → Roster) : (s.updRoster f).tel = s.tel := rfl
@[simp] theorem State.updRoster_upset (s : State) (f : Roster → Roster) : (s.updRoster f).upset = s.upset := rfl
@[simp] theorem State.updRoster_errs (s : State) (f : Roster → Roster) : (s.updRoster f).errs = s.errs := rfl
@[simp] theorem State.updRoster_outs (s : State) (f : Roster → Roster) : (s.updRoster f).outs = s.outs := rfl
@[simp] theorem State.updRoster_freeCtr (s : State) (f : Roster → Roster) : (s.updRoster f).freeCtr = s.freeCtr := rfl
@[simp] theorem State.updRoster_pending (s : State) (f : Roster → Roster) : (s.updRoster f).pending = s.pending := rfl
@[simp] theorem State.updRoster_expired (s : State) (f : Roster → Roster) : (s.updRoster f).expired = s.expired := rfl

/-! ### updLink -/

@[simp] theorem State.updLink_chip (s : State) (n : Nat) (f : Link → Link) : (s.updLink n f).chip = s.chip := rfl
@[simp] theorem State.updLink_fuses (s : State) (n : Nat) (f : Link → Link) : (s.updLink n f).fuses = s.fuses := rfl
@[simp] theorem State.updLink_regs (s : State) (n : Nat) (f : Link → Link) : (s.updLink n f).regs = s.regs := rfl
@[simp] theorem State.updLink_effOld (s : State) (n : Nat) (f : Link → Link) : (s.updLink n f).effOld = s.effOld := rfl
@[simp] theorem State.updLink_slotOld (s : State) (n : Nat) (f : Link → Link) : (s.updLink n f).slotOld = s.slotOld := rfl
@[simp] theorem State.updLink_pairCap (s : State) (n : Nat) (f : Link → Link) : (s.updLink n f).pairCap = s.pairCap := rfl
@[simp] theorem State.updLink_pairHeld (s : State) (n : Nat) (f : Link → Link) : (s.updLink n f).pairHeld = s.pairHeld := rfl
@[simp] theorem State.updLink_rdata (s : State) (n : Nat) (f : Link → Link) : (s.updLink n f).rdata = s.rdata := rfl
@[simp] theorem State.updLink_routes (s : State) (n : Nat) (f : Link → Link) : (s.updLink n f).routes = s.routes := rfl
@[simp] theorem State.updLink_boot (s : State) (n : Nat) (f : Link → Link) : (s.updLink n f).boot = s.boot := rfl
@[simp] theorem State.updLink_keep (s : State) (n : Nat) (f : Link → Link) : (s.updLink n f).keep = s.keep := rfl
@[simp] theorem State.updLink_timers (s : State) (n : Nat) (f : Link → Link) : (s.updLink n f).timers = s.timers := rfl
@[simp] theorem State.updLink_mbox (s : State) (n : Nat) (f : Link → Link) : (s.updLink n f).mbox = s.mbox := rfl
@[simp] theorem State.updLink_mboxTag (s : State) (n : Nat) (f : Link → Link) : (s.updLink n f).mboxTag = s.mboxTag := rfl
@[simp] theorem State.updLink_hive (s : State) (n : Nat) (f : Link → Link) : (s.updLink n f).hive = s.hive := rfl
@[simp] theorem State.updLink_bus (s : State) (n : Nat) (f : Link → Link) : (s.updLink n f).bus = s.bus := rfl
@[simp] theorem State.updLink_job (s : State) (n : Nat) (f : Link → Link) : (s.updLink n f).job = s.job := rfl
@[simp] theorem State.updLink_step (s : State) (n : Nat) (f : Link → Link) : (s.updLink n f).step = s.step := rfl
@[simp] theorem State.updLink_ports (s : State) (n : Nat) (f : Link → Link) : (s.updLink n f).ports = s.ports := rfl
@[simp] theorem State.updLink_sieves (s : State) (n : Nat) (f : Link → Link) : (s.updLink n f).sieves = s.sieves := rfl
@[simp] theorem State.updLink_clus (s : State) (n : Nat) (f : Link → Link) : (s.updLink n f).clus = s.clus := rfl
@[simp] theorem State.updLink_tiles (s : State) (n : Nat) (f : Link → Link) : (s.updLink n f).tiles = s.tiles := rfl
@[simp] theorem State.updLink_swarm (s : State) (n : Nat) (f : Link → Link) : (s.updLink n f).swarm = s.swarm := rfl
@[simp] theorem State.updLink_bar (s : State) (n : Nat) (f : Link → Link) : (s.updLink n f).bar = s.bar := rfl
@[simp] theorem State.updLink_roster (s : State) (n : Nat) (f : Link → Link) : (s.updLink n f).roster = s.roster := rfl
@[simp] theorem State.updLink_links (s : State) (n : Nat) (f : Link → Link) : (s.updLink n f).links =
    updAt s.links n f := rfl
@[simp] theorem State.updLink_limbo (s : State) (n : Nat) (f : Link → Link) : (s.updLink n f).limbo = s.limbo := rfl
@[simp] theorem State.updLink_power (s : State) (n : Nat) (f : Link → Link) : (s.updLink n f).power = s.power := rfl
@[simp] theorem State.updLink_tel (s : State) (n : Nat) (f : Link → Link) : (s.updLink n f).tel = s.tel := rfl
@[simp] theorem State.updLink_upset (s : State) (n : Nat) (f : Link → Link) : (s.updLink n f).upset = s.upset := rfl
@[simp] theorem State.updLink_errs (s : State) (n : Nat) (f : Link → Link) : (s.updLink n f).errs = s.errs := rfl
@[simp] theorem State.updLink_outs (s : State) (n : Nat) (f : Link → Link) : (s.updLink n f).outs = s.outs := rfl
@[simp] theorem State.updLink_freeCtr (s : State) (n : Nat) (f : Link → Link) : (s.updLink n f).freeCtr = s.freeCtr := rfl
@[simp] theorem State.updLink_pending (s : State) (n : Nat) (f : Link → Link) : (s.updLink n f).pending = s.pending := rfl
@[simp] theorem State.updLink_expired (s : State) (n : Nat) (f : Link → Link) : (s.updLink n f).expired = s.expired := rfl

/-! ### updTx -/

@[simp] theorem State.updTx_chip (s : State) (n : Nat) (f : LinkTx → LinkTx) : (s.updTx n f).chip = s.chip := rfl
@[simp] theorem State.updTx_fuses (s : State) (n : Nat) (f : LinkTx → LinkTx) : (s.updTx n f).fuses = s.fuses := rfl
@[simp] theorem State.updTx_regs (s : State) (n : Nat) (f : LinkTx → LinkTx) : (s.updTx n f).regs = s.regs := rfl
@[simp] theorem State.updTx_effOld (s : State) (n : Nat) (f : LinkTx → LinkTx) : (s.updTx n f).effOld = s.effOld := rfl
@[simp] theorem State.updTx_slotOld (s : State) (n : Nat) (f : LinkTx → LinkTx) : (s.updTx n f).slotOld = s.slotOld := rfl
@[simp] theorem State.updTx_pairCap (s : State) (n : Nat) (f : LinkTx → LinkTx) : (s.updTx n f).pairCap = s.pairCap := rfl
@[simp] theorem State.updTx_pairHeld (s : State) (n : Nat) (f : LinkTx → LinkTx) : (s.updTx n f).pairHeld = s.pairHeld := rfl
@[simp] theorem State.updTx_rdata (s : State) (n : Nat) (f : LinkTx → LinkTx) : (s.updTx n f).rdata = s.rdata := rfl
@[simp] theorem State.updTx_routes (s : State) (n : Nat) (f : LinkTx → LinkTx) : (s.updTx n f).routes = s.routes := rfl
@[simp] theorem State.updTx_boot (s : State) (n : Nat) (f : LinkTx → LinkTx) : (s.updTx n f).boot = s.boot := rfl
@[simp] theorem State.updTx_keep (s : State) (n : Nat) (f : LinkTx → LinkTx) : (s.updTx n f).keep = s.keep := rfl
@[simp] theorem State.updTx_timers (s : State) (n : Nat) (f : LinkTx → LinkTx) : (s.updTx n f).timers = s.timers := rfl
@[simp] theorem State.updTx_mbox (s : State) (n : Nat) (f : LinkTx → LinkTx) : (s.updTx n f).mbox = s.mbox := rfl
@[simp] theorem State.updTx_mboxTag (s : State) (n : Nat) (f : LinkTx → LinkTx) : (s.updTx n f).mboxTag = s.mboxTag := rfl
@[simp] theorem State.updTx_hive (s : State) (n : Nat) (f : LinkTx → LinkTx) : (s.updTx n f).hive = s.hive := rfl
@[simp] theorem State.updTx_bus (s : State) (n : Nat) (f : LinkTx → LinkTx) : (s.updTx n f).bus = s.bus := rfl
@[simp] theorem State.updTx_job (s : State) (n : Nat) (f : LinkTx → LinkTx) : (s.updTx n f).job = s.job := rfl
@[simp] theorem State.updTx_step (s : State) (n : Nat) (f : LinkTx → LinkTx) : (s.updTx n f).step = s.step := rfl
@[simp] theorem State.updTx_ports (s : State) (n : Nat) (f : LinkTx → LinkTx) : (s.updTx n f).ports = s.ports := rfl
@[simp] theorem State.updTx_sieves (s : State) (n : Nat) (f : LinkTx → LinkTx) : (s.updTx n f).sieves = s.sieves := rfl
@[simp] theorem State.updTx_clus (s : State) (n : Nat) (f : LinkTx → LinkTx) : (s.updTx n f).clus = s.clus := rfl
@[simp] theorem State.updTx_tiles (s : State) (n : Nat) (f : LinkTx → LinkTx) : (s.updTx n f).tiles = s.tiles := rfl
@[simp] theorem State.updTx_swarm (s : State) (n : Nat) (f : LinkTx → LinkTx) : (s.updTx n f).swarm = s.swarm := rfl
@[simp] theorem State.updTx_bar (s : State) (n : Nat) (f : LinkTx → LinkTx) : (s.updTx n f).bar = s.bar := rfl
@[simp] theorem State.updTx_roster (s : State) (n : Nat) (f : LinkTx → LinkTx) : (s.updTx n f).roster = s.roster := rfl
@[simp] theorem State.updTx_links (s : State) (n : Nat) (f : LinkTx → LinkTx) : (s.updTx n f).links =
    updAt s.links n (fun l => { l with tx := f l.tx }) := rfl
@[simp] theorem State.updTx_limbo (s : State) (n : Nat) (f : LinkTx → LinkTx) : (s.updTx n f).limbo = s.limbo := rfl
@[simp] theorem State.updTx_power (s : State) (n : Nat) (f : LinkTx → LinkTx) : (s.updTx n f).power = s.power := rfl
@[simp] theorem State.updTx_tel (s : State) (n : Nat) (f : LinkTx → LinkTx) : (s.updTx n f).tel = s.tel := rfl
@[simp] theorem State.updTx_upset (s : State) (n : Nat) (f : LinkTx → LinkTx) : (s.updTx n f).upset = s.upset := rfl
@[simp] theorem State.updTx_errs (s : State) (n : Nat) (f : LinkTx → LinkTx) : (s.updTx n f).errs = s.errs := rfl
@[simp] theorem State.updTx_outs (s : State) (n : Nat) (f : LinkTx → LinkTx) : (s.updTx n f).outs = s.outs := rfl
@[simp] theorem State.updTx_freeCtr (s : State) (n : Nat) (f : LinkTx → LinkTx) : (s.updTx n f).freeCtr = s.freeCtr := rfl
@[simp] theorem State.updTx_pending (s : State) (n : Nat) (f : LinkTx → LinkTx) : (s.updTx n f).pending = s.pending := rfl
@[simp] theorem State.updTx_expired (s : State) (n : Nat) (f : LinkTx → LinkTx) : (s.updTx n f).expired = s.expired := rfl

/-! ### updRx -/

@[simp] theorem State.updRx_chip (s : State) (n : Nat) (f : LinkRx → LinkRx) : (s.updRx n f).chip = s.chip := rfl
@[simp] theorem State.updRx_fuses (s : State) (n : Nat) (f : LinkRx → LinkRx) : (s.updRx n f).fuses = s.fuses := rfl
@[simp] theorem State.updRx_regs (s : State) (n : Nat) (f : LinkRx → LinkRx) : (s.updRx n f).regs = s.regs := rfl
@[simp] theorem State.updRx_effOld (s : State) (n : Nat) (f : LinkRx → LinkRx) : (s.updRx n f).effOld = s.effOld := rfl
@[simp] theorem State.updRx_slotOld (s : State) (n : Nat) (f : LinkRx → LinkRx) : (s.updRx n f).slotOld = s.slotOld := rfl
@[simp] theorem State.updRx_pairCap (s : State) (n : Nat) (f : LinkRx → LinkRx) : (s.updRx n f).pairCap = s.pairCap := rfl
@[simp] theorem State.updRx_pairHeld (s : State) (n : Nat) (f : LinkRx → LinkRx) : (s.updRx n f).pairHeld = s.pairHeld := rfl
@[simp] theorem State.updRx_rdata (s : State) (n : Nat) (f : LinkRx → LinkRx) : (s.updRx n f).rdata = s.rdata := rfl
@[simp] theorem State.updRx_routes (s : State) (n : Nat) (f : LinkRx → LinkRx) : (s.updRx n f).routes = s.routes := rfl
@[simp] theorem State.updRx_boot (s : State) (n : Nat) (f : LinkRx → LinkRx) : (s.updRx n f).boot = s.boot := rfl
@[simp] theorem State.updRx_keep (s : State) (n : Nat) (f : LinkRx → LinkRx) : (s.updRx n f).keep = s.keep := rfl
@[simp] theorem State.updRx_timers (s : State) (n : Nat) (f : LinkRx → LinkRx) : (s.updRx n f).timers = s.timers := rfl
@[simp] theorem State.updRx_mbox (s : State) (n : Nat) (f : LinkRx → LinkRx) : (s.updRx n f).mbox = s.mbox := rfl
@[simp] theorem State.updRx_mboxTag (s : State) (n : Nat) (f : LinkRx → LinkRx) : (s.updRx n f).mboxTag = s.mboxTag := rfl
@[simp] theorem State.updRx_hive (s : State) (n : Nat) (f : LinkRx → LinkRx) : (s.updRx n f).hive = s.hive := rfl
@[simp] theorem State.updRx_bus (s : State) (n : Nat) (f : LinkRx → LinkRx) : (s.updRx n f).bus = s.bus := rfl
@[simp] theorem State.updRx_job (s : State) (n : Nat) (f : LinkRx → LinkRx) : (s.updRx n f).job = s.job := rfl
@[simp] theorem State.updRx_step (s : State) (n : Nat) (f : LinkRx → LinkRx) : (s.updRx n f).step = s.step := rfl
@[simp] theorem State.updRx_ports (s : State) (n : Nat) (f : LinkRx → LinkRx) : (s.updRx n f).ports = s.ports := rfl
@[simp] theorem State.updRx_sieves (s : State) (n : Nat) (f : LinkRx → LinkRx) : (s.updRx n f).sieves = s.sieves := rfl
@[simp] theorem State.updRx_clus (s : State) (n : Nat) (f : LinkRx → LinkRx) : (s.updRx n f).clus = s.clus := rfl
@[simp] theorem State.updRx_tiles (s : State) (n : Nat) (f : LinkRx → LinkRx) : (s.updRx n f).tiles = s.tiles := rfl
@[simp] theorem State.updRx_swarm (s : State) (n : Nat) (f : LinkRx → LinkRx) : (s.updRx n f).swarm = s.swarm := rfl
@[simp] theorem State.updRx_bar (s : State) (n : Nat) (f : LinkRx → LinkRx) : (s.updRx n f).bar = s.bar := rfl
@[simp] theorem State.updRx_roster (s : State) (n : Nat) (f : LinkRx → LinkRx) : (s.updRx n f).roster = s.roster := rfl
@[simp] theorem State.updRx_links (s : State) (n : Nat) (f : LinkRx → LinkRx) : (s.updRx n f).links =
    updAt s.links n (fun l => { l with rx := f l.rx }) := rfl
@[simp] theorem State.updRx_limbo (s : State) (n : Nat) (f : LinkRx → LinkRx) : (s.updRx n f).limbo = s.limbo := rfl
@[simp] theorem State.updRx_power (s : State) (n : Nat) (f : LinkRx → LinkRx) : (s.updRx n f).power = s.power := rfl
@[simp] theorem State.updRx_tel (s : State) (n : Nat) (f : LinkRx → LinkRx) : (s.updRx n f).tel = s.tel := rfl
@[simp] theorem State.updRx_upset (s : State) (n : Nat) (f : LinkRx → LinkRx) : (s.updRx n f).upset = s.upset := rfl
@[simp] theorem State.updRx_errs (s : State) (n : Nat) (f : LinkRx → LinkRx) : (s.updRx n f).errs = s.errs := rfl
@[simp] theorem State.updRx_outs (s : State) (n : Nat) (f : LinkRx → LinkRx) : (s.updRx n f).outs = s.outs := rfl
@[simp] theorem State.updRx_freeCtr (s : State) (n : Nat) (f : LinkRx → LinkRx) : (s.updRx n f).freeCtr = s.freeCtr := rfl
@[simp] theorem State.updRx_pending (s : State) (n : Nat) (f : LinkRx → LinkRx) : (s.updRx n f).pending = s.pending := rfl
@[simp] theorem State.updRx_expired (s : State) (n : Nat) (f : LinkRx → LinkRx) : (s.updRx n f).expired = s.expired := rfl

/-! ### updTrain -/

@[simp] theorem State.updTrain_chip (s : State) (n : Nat) (f : LinkTrain → LinkTrain) : (s.updTrain n f).chip = s.chip := rfl
@[simp] theorem State.updTrain_fuses (s : State) (n : Nat) (f : LinkTrain → LinkTrain) : (s.updTrain n f).fuses = s.fuses := rfl
@[simp] theorem State.updTrain_regs (s : State) (n : Nat) (f : LinkTrain → LinkTrain) : (s.updTrain n f).regs = s.regs := rfl
@[simp] theorem State.updTrain_effOld (s : State) (n : Nat) (f : LinkTrain → LinkTrain) : (s.updTrain n f).effOld = s.effOld := rfl
@[simp] theorem State.updTrain_slotOld (s : State) (n : Nat) (f : LinkTrain → LinkTrain) : (s.updTrain n f).slotOld = s.slotOld := rfl
@[simp] theorem State.updTrain_pairCap (s : State) (n : Nat) (f : LinkTrain → LinkTrain) : (s.updTrain n f).pairCap = s.pairCap := rfl
@[simp] theorem State.updTrain_pairHeld (s : State) (n : Nat) (f : LinkTrain → LinkTrain) : (s.updTrain n f).pairHeld = s.pairHeld := rfl
@[simp] theorem State.updTrain_rdata (s : State) (n : Nat) (f : LinkTrain → LinkTrain) : (s.updTrain n f).rdata = s.rdata := rfl
@[simp] theorem State.updTrain_routes (s : State) (n : Nat) (f : LinkTrain → LinkTrain) : (s.updTrain n f).routes = s.routes := rfl
@[simp] theorem State.updTrain_boot (s : State) (n : Nat) (f : LinkTrain → LinkTrain) : (s.updTrain n f).boot = s.boot := rfl
@[simp] theorem State.updTrain_keep (s : State) (n : Nat) (f : LinkTrain → LinkTrain) : (s.updTrain n f).keep = s.keep := rfl
@[simp] theorem State.updTrain_timers (s : State) (n : Nat) (f : LinkTrain → LinkTrain) : (s.updTrain n f).timers = s.timers := rfl
@[simp] theorem State.updTrain_mbox (s : State) (n : Nat) (f : LinkTrain → LinkTrain) : (s.updTrain n f).mbox = s.mbox := rfl
@[simp] theorem State.updTrain_mboxTag (s : State) (n : Nat) (f : LinkTrain → LinkTrain) : (s.updTrain n f).mboxTag = s.mboxTag := rfl
@[simp] theorem State.updTrain_hive (s : State) (n : Nat) (f : LinkTrain → LinkTrain) : (s.updTrain n f).hive = s.hive := rfl
@[simp] theorem State.updTrain_bus (s : State) (n : Nat) (f : LinkTrain → LinkTrain) : (s.updTrain n f).bus = s.bus := rfl
@[simp] theorem State.updTrain_job (s : State) (n : Nat) (f : LinkTrain → LinkTrain) : (s.updTrain n f).job = s.job := rfl
@[simp] theorem State.updTrain_step (s : State) (n : Nat) (f : LinkTrain → LinkTrain) : (s.updTrain n f).step = s.step := rfl
@[simp] theorem State.updTrain_ports (s : State) (n : Nat) (f : LinkTrain → LinkTrain) : (s.updTrain n f).ports = s.ports := rfl
@[simp] theorem State.updTrain_sieves (s : State) (n : Nat) (f : LinkTrain → LinkTrain) : (s.updTrain n f).sieves = s.sieves := rfl
@[simp] theorem State.updTrain_clus (s : State) (n : Nat) (f : LinkTrain → LinkTrain) : (s.updTrain n f).clus = s.clus := rfl
@[simp] theorem State.updTrain_tiles (s : State) (n : Nat) (f : LinkTrain → LinkTrain) : (s.updTrain n f).tiles = s.tiles := rfl
@[simp] theorem State.updTrain_swarm (s : State) (n : Nat) (f : LinkTrain → LinkTrain) : (s.updTrain n f).swarm = s.swarm := rfl
@[simp] theorem State.updTrain_bar (s : State) (n : Nat) (f : LinkTrain → LinkTrain) : (s.updTrain n f).bar = s.bar := rfl
@[simp] theorem State.updTrain_roster (s : State) (n : Nat) (f : LinkTrain → LinkTrain) : (s.updTrain n f).roster = s.roster := rfl
@[simp] theorem State.updTrain_links (s : State) (n : Nat) (f : LinkTrain → LinkTrain) : (s.updTrain n f).links =
    updAt s.links n (fun l => { l with train := f l.train }) := rfl
@[simp] theorem State.updTrain_limbo (s : State) (n : Nat) (f : LinkTrain → LinkTrain) : (s.updTrain n f).limbo = s.limbo := rfl
@[simp] theorem State.updTrain_power (s : State) (n : Nat) (f : LinkTrain → LinkTrain) : (s.updTrain n f).power = s.power := rfl
@[simp] theorem State.updTrain_tel (s : State) (n : Nat) (f : LinkTrain → LinkTrain) : (s.updTrain n f).tel = s.tel := rfl
@[simp] theorem State.updTrain_upset (s : State) (n : Nat) (f : LinkTrain → LinkTrain) : (s.updTrain n f).upset = s.upset := rfl
@[simp] theorem State.updTrain_errs (s : State) (n : Nat) (f : LinkTrain → LinkTrain) : (s.updTrain n f).errs = s.errs := rfl
@[simp] theorem State.updTrain_outs (s : State) (n : Nat) (f : LinkTrain → LinkTrain) : (s.updTrain n f).outs = s.outs := rfl
@[simp] theorem State.updTrain_freeCtr (s : State) (n : Nat) (f : LinkTrain → LinkTrain) : (s.updTrain n f).freeCtr = s.freeCtr := rfl
@[simp] theorem State.updTrain_pending (s : State) (n : Nat) (f : LinkTrain → LinkTrain) : (s.updTrain n f).pending = s.pending := rfl
@[simp] theorem State.updTrain_expired (s : State) (n : Nat) (f : LinkTrain → LinkTrain) : (s.updTrain n f).expired = s.expired := rfl

/-! ### updKeys -/

@[simp] theorem State.updKeys_chip (s : State) (n : Nat) (f : LinkKeys → LinkKeys) : (s.updKeys n f).chip = s.chip := rfl
@[simp] theorem State.updKeys_fuses (s : State) (n : Nat) (f : LinkKeys → LinkKeys) : (s.updKeys n f).fuses = s.fuses := rfl
@[simp] theorem State.updKeys_regs (s : State) (n : Nat) (f : LinkKeys → LinkKeys) : (s.updKeys n f).regs = s.regs := rfl
@[simp] theorem State.updKeys_effOld (s : State) (n : Nat) (f : LinkKeys → LinkKeys) : (s.updKeys n f).effOld = s.effOld := rfl
@[simp] theorem State.updKeys_slotOld (s : State) (n : Nat) (f : LinkKeys → LinkKeys) : (s.updKeys n f).slotOld = s.slotOld := rfl
@[simp] theorem State.updKeys_pairCap (s : State) (n : Nat) (f : LinkKeys → LinkKeys) : (s.updKeys n f).pairCap = s.pairCap := rfl
@[simp] theorem State.updKeys_pairHeld (s : State) (n : Nat) (f : LinkKeys → LinkKeys) : (s.updKeys n f).pairHeld = s.pairHeld := rfl
@[simp] theorem State.updKeys_rdata (s : State) (n : Nat) (f : LinkKeys → LinkKeys) : (s.updKeys n f).rdata = s.rdata := rfl
@[simp] theorem State.updKeys_routes (s : State) (n : Nat) (f : LinkKeys → LinkKeys) : (s.updKeys n f).routes = s.routes := rfl
@[simp] theorem State.updKeys_boot (s : State) (n : Nat) (f : LinkKeys → LinkKeys) : (s.updKeys n f).boot = s.boot := rfl
@[simp] theorem State.updKeys_keep (s : State) (n : Nat) (f : LinkKeys → LinkKeys) : (s.updKeys n f).keep = s.keep := rfl
@[simp] theorem State.updKeys_timers (s : State) (n : Nat) (f : LinkKeys → LinkKeys) : (s.updKeys n f).timers = s.timers := rfl
@[simp] theorem State.updKeys_mbox (s : State) (n : Nat) (f : LinkKeys → LinkKeys) : (s.updKeys n f).mbox = s.mbox := rfl
@[simp] theorem State.updKeys_mboxTag (s : State) (n : Nat) (f : LinkKeys → LinkKeys) : (s.updKeys n f).mboxTag = s.mboxTag := rfl
@[simp] theorem State.updKeys_hive (s : State) (n : Nat) (f : LinkKeys → LinkKeys) : (s.updKeys n f).hive = s.hive := rfl
@[simp] theorem State.updKeys_bus (s : State) (n : Nat) (f : LinkKeys → LinkKeys) : (s.updKeys n f).bus = s.bus := rfl
@[simp] theorem State.updKeys_job (s : State) (n : Nat) (f : LinkKeys → LinkKeys) : (s.updKeys n f).job = s.job := rfl
@[simp] theorem State.updKeys_step (s : State) (n : Nat) (f : LinkKeys → LinkKeys) : (s.updKeys n f).step = s.step := rfl
@[simp] theorem State.updKeys_ports (s : State) (n : Nat) (f : LinkKeys → LinkKeys) : (s.updKeys n f).ports = s.ports := rfl
@[simp] theorem State.updKeys_sieves (s : State) (n : Nat) (f : LinkKeys → LinkKeys) : (s.updKeys n f).sieves = s.sieves := rfl
@[simp] theorem State.updKeys_clus (s : State) (n : Nat) (f : LinkKeys → LinkKeys) : (s.updKeys n f).clus = s.clus := rfl
@[simp] theorem State.updKeys_tiles (s : State) (n : Nat) (f : LinkKeys → LinkKeys) : (s.updKeys n f).tiles = s.tiles := rfl
@[simp] theorem State.updKeys_swarm (s : State) (n : Nat) (f : LinkKeys → LinkKeys) : (s.updKeys n f).swarm = s.swarm := rfl
@[simp] theorem State.updKeys_bar (s : State) (n : Nat) (f : LinkKeys → LinkKeys) : (s.updKeys n f).bar = s.bar := rfl
@[simp] theorem State.updKeys_roster (s : State) (n : Nat) (f : LinkKeys → LinkKeys) : (s.updKeys n f).roster = s.roster := rfl
@[simp] theorem State.updKeys_links (s : State) (n : Nat) (f : LinkKeys → LinkKeys) : (s.updKeys n f).links =
    updAt s.links n (fun l => { l with keys := f l.keys }) := rfl
@[simp] theorem State.updKeys_limbo (s : State) (n : Nat) (f : LinkKeys → LinkKeys) : (s.updKeys n f).limbo = s.limbo := rfl
@[simp] theorem State.updKeys_power (s : State) (n : Nat) (f : LinkKeys → LinkKeys) : (s.updKeys n f).power = s.power := rfl
@[simp] theorem State.updKeys_tel (s : State) (n : Nat) (f : LinkKeys → LinkKeys) : (s.updKeys n f).tel = s.tel := rfl
@[simp] theorem State.updKeys_upset (s : State) (n : Nat) (f : LinkKeys → LinkKeys) : (s.updKeys n f).upset = s.upset := rfl
@[simp] theorem State.updKeys_errs (s : State) (n : Nat) (f : LinkKeys → LinkKeys) : (s.updKeys n f).errs = s.errs := rfl
@[simp] theorem State.updKeys_outs (s : State) (n : Nat) (f : LinkKeys → LinkKeys) : (s.updKeys n f).outs = s.outs := rfl
@[simp] theorem State.updKeys_freeCtr (s : State) (n : Nat) (f : LinkKeys → LinkKeys) : (s.updKeys n f).freeCtr = s.freeCtr := rfl
@[simp] theorem State.updKeys_pending (s : State) (n : Nat) (f : LinkKeys → LinkKeys) : (s.updKeys n f).pending = s.pending := rfl
@[simp] theorem State.updKeys_expired (s : State) (n : Nat) (f : LinkKeys → LinkKeys) : (s.updKeys n f).expired = s.expired := rfl

/-! ### updDie -/

@[simp] theorem State.updDie_chip (s : State) (a : Nat) (f : DiePort → DiePort) : (s.updDie a f).chip = s.chip := rfl
@[simp] theorem State.updDie_fuses (s : State) (a : Nat) (f : DiePort → DiePort) : (s.updDie a f).fuses = s.fuses := rfl
@[simp] theorem State.updDie_regs (s : State) (a : Nat) (f : DiePort → DiePort) : (s.updDie a f).regs = s.regs := rfl
@[simp] theorem State.updDie_effOld (s : State) (a : Nat) (f : DiePort → DiePort) : (s.updDie a f).effOld = s.effOld := rfl
@[simp] theorem State.updDie_slotOld (s : State) (a : Nat) (f : DiePort → DiePort) : (s.updDie a f).slotOld = s.slotOld := rfl
@[simp] theorem State.updDie_pairCap (s : State) (a : Nat) (f : DiePort → DiePort) : (s.updDie a f).pairCap = s.pairCap := rfl
@[simp] theorem State.updDie_pairHeld (s : State) (a : Nat) (f : DiePort → DiePort) : (s.updDie a f).pairHeld = s.pairHeld := rfl
@[simp] theorem State.updDie_rdata (s : State) (a : Nat) (f : DiePort → DiePort) : (s.updDie a f).rdata = s.rdata := rfl
@[simp] theorem State.updDie_routes (s : State) (a : Nat) (f : DiePort → DiePort) : (s.updDie a f).routes = s.routes := rfl
@[simp] theorem State.updDie_boot (s : State) (a : Nat) (f : DiePort → DiePort) : (s.updDie a f).boot = s.boot := rfl
@[simp] theorem State.updDie_keep (s : State) (a : Nat) (f : DiePort → DiePort) : (s.updDie a f).keep = s.keep := rfl
@[simp] theorem State.updDie_timers (s : State) (a : Nat) (f : DiePort → DiePort) : (s.updDie a f).timers = s.timers := rfl
@[simp] theorem State.updDie_mbox (s : State) (a : Nat) (f : DiePort → DiePort) : (s.updDie a f).mbox = s.mbox := rfl
@[simp] theorem State.updDie_mboxTag (s : State) (a : Nat) (f : DiePort → DiePort) : (s.updDie a f).mboxTag = s.mboxTag := rfl
@[simp] theorem State.updDie_hive (s : State) (a : Nat) (f : DiePort → DiePort) : (s.updDie a f).hive = s.hive := rfl
@[simp] theorem State.updDie_bus (s : State) (a : Nat) (f : DiePort → DiePort) : (s.updDie a f).bus = s.bus := rfl
@[simp] theorem State.updDie_job (s : State) (a : Nat) (f : DiePort → DiePort) : (s.updDie a f).job = s.job := rfl
@[simp] theorem State.updDie_step (s : State) (a : Nat) (f : DiePort → DiePort) : (s.updDie a f).step = s.step := rfl
@[simp] theorem State.updDie_ports (s : State) (a : Nat) (f : DiePort → DiePort) : (s.updDie a f).ports =
    updAt s.ports a f := rfl
@[simp] theorem State.updDie_sieves (s : State) (a : Nat) (f : DiePort → DiePort) : (s.updDie a f).sieves = s.sieves := rfl
@[simp] theorem State.updDie_clus (s : State) (a : Nat) (f : DiePort → DiePort) : (s.updDie a f).clus = s.clus := rfl
@[simp] theorem State.updDie_tiles (s : State) (a : Nat) (f : DiePort → DiePort) : (s.updDie a f).tiles = s.tiles := rfl
@[simp] theorem State.updDie_swarm (s : State) (a : Nat) (f : DiePort → DiePort) : (s.updDie a f).swarm = s.swarm := rfl
@[simp] theorem State.updDie_bar (s : State) (a : Nat) (f : DiePort → DiePort) : (s.updDie a f).bar = s.bar := rfl
@[simp] theorem State.updDie_roster (s : State) (a : Nat) (f : DiePort → DiePort) : (s.updDie a f).roster = s.roster := rfl
@[simp] theorem State.updDie_links (s : State) (a : Nat) (f : DiePort → DiePort) : (s.updDie a f).links = s.links := rfl
@[simp] theorem State.updDie_limbo (s : State) (a : Nat) (f : DiePort → DiePort) : (s.updDie a f).limbo = s.limbo := rfl
@[simp] theorem State.updDie_power (s : State) (a : Nat) (f : DiePort → DiePort) : (s.updDie a f).power = s.power := rfl
@[simp] theorem State.updDie_tel (s : State) (a : Nat) (f : DiePort → DiePort) : (s.updDie a f).tel = s.tel := rfl
@[simp] theorem State.updDie_upset (s : State) (a : Nat) (f : DiePort → DiePort) : (s.updDie a f).upset = s.upset := rfl
@[simp] theorem State.updDie_errs (s : State) (a : Nat) (f : DiePort → DiePort) : (s.updDie a f).errs = s.errs := rfl
@[simp] theorem State.updDie_outs (s : State) (a : Nat) (f : DiePort → DiePort) : (s.updDie a f).outs = s.outs := rfl
@[simp] theorem State.updDie_freeCtr (s : State) (a : Nat) (f : DiePort → DiePort) : (s.updDie a f).freeCtr = s.freeCtr := rfl
@[simp] theorem State.updDie_pending (s : State) (a : Nat) (f : DiePort → DiePort) : (s.updDie a f).pending = s.pending := rfl
@[simp] theorem State.updDie_expired (s : State) (a : Nat) (f : DiePort → DiePort) : (s.updDie a f).expired = s.expired := rfl

/-! ### incLink -/

@[simp] theorem State.incLink_chip (s : State) (n i k : Nat) : (s.incLink n i k).chip = s.chip := rfl
@[simp] theorem State.incLink_fuses (s : State) (n i k : Nat) : (s.incLink n i k).fuses = s.fuses := rfl
@[simp] theorem State.incLink_effOld (s : State) (n i k : Nat) : (s.incLink n i k).effOld = s.effOld := rfl
@[simp] theorem State.incLink_slotOld (s : State) (n i k : Nat) : (s.incLink n i k).slotOld = s.slotOld := rfl
@[simp] theorem State.incLink_pairCap (s : State) (n i k : Nat) : (s.incLink n i k).pairCap = s.pairCap := rfl
@[simp] theorem State.incLink_pairHeld (s : State) (n i k : Nat) : (s.incLink n i k).pairHeld = s.pairHeld := rfl
@[simp] theorem State.incLink_rdata (s : State) (n i k : Nat) : (s.incLink n i k).rdata = s.rdata := rfl
@[simp] theorem State.incLink_routes (s : State) (n i k : Nat) : (s.incLink n i k).routes = s.routes := rfl
@[simp] theorem State.incLink_boot (s : State) (n i k : Nat) : (s.incLink n i k).boot = s.boot := rfl
@[simp] theorem State.incLink_keep (s : State) (n i k : Nat) : (s.incLink n i k).keep = s.keep := rfl
@[simp] theorem State.incLink_timers (s : State) (n i k : Nat) : (s.incLink n i k).timers = s.timers := rfl
@[simp] theorem State.incLink_mbox (s : State) (n i k : Nat) : (s.incLink n i k).mbox = s.mbox := rfl
@[simp] theorem State.incLink_mboxTag (s : State) (n i k : Nat) : (s.incLink n i k).mboxTag = s.mboxTag := rfl
@[simp] theorem State.incLink_hive (s : State) (n i k : Nat) : (s.incLink n i k).hive = s.hive := rfl
@[simp] theorem State.incLink_bus (s : State) (n i k : Nat) : (s.incLink n i k).bus = s.bus := rfl
@[simp] theorem State.incLink_job (s : State) (n i k : Nat) : (s.incLink n i k).job = s.job := rfl
@[simp] theorem State.incLink_step (s : State) (n i k : Nat) : (s.incLink n i k).step = s.step := rfl
@[simp] theorem State.incLink_ports (s : State) (n i k : Nat) : (s.incLink n i k).ports = s.ports := rfl
@[simp] theorem State.incLink_sieves (s : State) (n i k : Nat) : (s.incLink n i k).sieves = s.sieves := rfl
@[simp] theorem State.incLink_clus (s : State) (n i k : Nat) : (s.incLink n i k).clus = s.clus := rfl
@[simp] theorem State.incLink_tiles (s : State) (n i k : Nat) : (s.incLink n i k).tiles = s.tiles := rfl
@[simp] theorem State.incLink_swarm (s : State) (n i k : Nat) : (s.incLink n i k).swarm = s.swarm := rfl
@[simp] theorem State.incLink_bar (s : State) (n i k : Nat) : (s.incLink n i k).bar = s.bar := rfl
@[simp] theorem State.incLink_roster (s : State) (n i k : Nat) : (s.incLink n i k).roster = s.roster := rfl
@[simp] theorem State.incLink_links (s : State) (n i k : Nat) : (s.incLink n i k).links = s.links := rfl
@[simp] theorem State.incLink_limbo (s : State) (n i k : Nat) : (s.incLink n i k).limbo = s.limbo := rfl
@[simp] theorem State.incLink_power (s : State) (n i k : Nat) : (s.incLink n i k).power = s.power := rfl
@[simp] theorem State.incLink_tel (s : State) (n i k : Nat) : (s.incLink n i k).tel = s.tel := rfl
@[simp] theorem State.incLink_upset (s : State) (n i k : Nat) : (s.incLink n i k).upset = s.upset := rfl
@[simp] theorem State.incLink_errs (s : State) (n i k : Nat) : (s.incLink n i k).errs = s.errs := rfl
@[simp] theorem State.incLink_outs (s : State) (n i k : Nat) : (s.incLink n i k).outs = s.outs := rfl
@[simp] theorem State.incLink_freeCtr (s : State) (n i k : Nat) : (s.incLink n i k).freeCtr = s.freeCtr := rfl
@[simp] theorem State.incLink_pending (s : State) (n i k : Nat) : (s.incLink n i k).pending = s.pending := rfl
@[simp] theorem State.incLink_expired (s : State) (n i k : Nat) : (s.incLink n i k).expired = s.expired := rfl

/-! ### hput -/

@[simp] theorem State.hput_chip (s : State) (a : Nat) (bs : List Byte) : (s.hput a bs).chip = s.chip := rfl
@[simp] theorem State.hput_fuses (s : State) (a : Nat) (bs : List Byte) : (s.hput a bs).fuses = s.fuses := rfl
@[simp] theorem State.hput_regs (s : State) (a : Nat) (bs : List Byte) : (s.hput a bs).regs = s.regs := rfl
@[simp] theorem State.hput_effOld (s : State) (a : Nat) (bs : List Byte) : (s.hput a bs).effOld = s.effOld := rfl
@[simp] theorem State.hput_slotOld (s : State) (a : Nat) (bs : List Byte) : (s.hput a bs).slotOld = s.slotOld := rfl
@[simp] theorem State.hput_pairCap (s : State) (a : Nat) (bs : List Byte) : (s.hput a bs).pairCap = s.pairCap := rfl
@[simp] theorem State.hput_pairHeld (s : State) (a : Nat) (bs : List Byte) : (s.hput a bs).pairHeld = s.pairHeld := rfl
@[simp] theorem State.hput_rdata (s : State) (a : Nat) (bs : List Byte) : (s.hput a bs).rdata = s.rdata := rfl
@[simp] theorem State.hput_routes (s : State) (a : Nat) (bs : List Byte) : (s.hput a bs).routes = s.routes := rfl
@[simp] theorem State.hput_boot (s : State) (a : Nat) (bs : List Byte) : (s.hput a bs).boot = s.boot := rfl
@[simp] theorem State.hput_keep (s : State) (a : Nat) (bs : List Byte) : (s.hput a bs).keep = s.keep := rfl
@[simp] theorem State.hput_timers (s : State) (a : Nat) (bs : List Byte) : (s.hput a bs).timers = s.timers := rfl
@[simp] theorem State.hput_mbox (s : State) (a : Nat) (bs : List Byte) : (s.hput a bs).mbox = s.mbox := rfl
@[simp] theorem State.hput_mboxTag (s : State) (a : Nat) (bs : List Byte) : (s.hput a bs).mboxTag = s.mboxTag := rfl
@[simp] theorem State.hput_hive (s : State) (a : Nat) (bs : List Byte) : (s.hput a bs).hive =
    { s.hive with
      mem := SMap.write (zeroByte s.hive.layout) s.hive.mem a bs
      upsets := s.hive.upsets.filter (fun u => !decide (a ≤ u.1 ∧ u.1 + 8 ≤ a + bs.length)) } := rfl
@[simp] theorem State.hput_bus (s : State) (a : Nat) (bs : List Byte) : (s.hput a bs).bus = s.bus := rfl
@[simp] theorem State.hput_job (s : State) (a : Nat) (bs : List Byte) : (s.hput a bs).job = s.job := rfl
@[simp] theorem State.hput_step (s : State) (a : Nat) (bs : List Byte) : (s.hput a bs).step = s.step := rfl
@[simp] theorem State.hput_ports (s : State) (a : Nat) (bs : List Byte) : (s.hput a bs).ports = s.ports := rfl
@[simp] theorem State.hput_sieves (s : State) (a : Nat) (bs : List Byte) : (s.hput a bs).sieves = s.sieves := rfl
@[simp] theorem State.hput_clus (s : State) (a : Nat) (bs : List Byte) : (s.hput a bs).clus = s.clus := rfl
@[simp] theorem State.hput_tiles (s : State) (a : Nat) (bs : List Byte) : (s.hput a bs).tiles = s.tiles := rfl
@[simp] theorem State.hput_swarm (s : State) (a : Nat) (bs : List Byte) : (s.hput a bs).swarm = s.swarm := rfl
@[simp] theorem State.hput_bar (s : State) (a : Nat) (bs : List Byte) : (s.hput a bs).bar = s.bar := rfl
@[simp] theorem State.hput_roster (s : State) (a : Nat) (bs : List Byte) : (s.hput a bs).roster = s.roster := rfl
@[simp] theorem State.hput_links (s : State) (a : Nat) (bs : List Byte) : (s.hput a bs).links = s.links := rfl
@[simp] theorem State.hput_limbo (s : State) (a : Nat) (bs : List Byte) : (s.hput a bs).limbo = s.limbo := rfl
@[simp] theorem State.hput_power (s : State) (a : Nat) (bs : List Byte) : (s.hput a bs).power = s.power := rfl
@[simp] theorem State.hput_tel (s : State) (a : Nat) (bs : List Byte) : (s.hput a bs).tel = s.tel := rfl
@[simp] theorem State.hput_upset (s : State) (a : Nat) (bs : List Byte) : (s.hput a bs).upset = s.upset := rfl
@[simp] theorem State.hput_errs (s : State) (a : Nat) (bs : List Byte) : (s.hput a bs).errs = s.errs := rfl
@[simp] theorem State.hput_outs (s : State) (a : Nat) (bs : List Byte) : (s.hput a bs).outs = s.outs := rfl
@[simp] theorem State.hput_freeCtr (s : State) (a : Nat) (bs : List Byte) : (s.hput a bs).freeCtr = s.freeCtr := rfl
@[simp] theorem State.hput_pending (s : State) (a : Nat) (bs : List Byte) : (s.hput a bs).pending = s.pending := rfl
@[simp] theorem State.hput_expired (s : State) (a : Nat) (bs : List Byte) : (s.hput a bs).expired = s.expired := rfl

/-! ### setHead -/

@[simp] theorem State.setHead_chip (s : State) (q sub v : Nat) : (s.setHead q sub v).chip = s.chip := rfl
@[simp] theorem State.setHead_fuses (s : State) (q sub v : Nat) : (s.setHead q sub v).fuses = s.fuses := rfl
@[simp] theorem State.setHead_regs (s : State) (q sub v : Nat) : (s.setHead q sub v).regs = s.regs := rfl
@[simp] theorem State.setHead_effOld (s : State) (q sub v : Nat) : (s.setHead q sub v).effOld = s.effOld := rfl
@[simp] theorem State.setHead_slotOld (s : State) (q sub v : Nat) : (s.setHead q sub v).slotOld = s.slotOld := rfl
@[simp] theorem State.setHead_pairCap (s : State) (q sub v : Nat) : (s.setHead q sub v).pairCap = s.pairCap := rfl
@[simp] theorem State.setHead_pairHeld (s : State) (q sub v : Nat) : (s.setHead q sub v).pairHeld = s.pairHeld := rfl
@[simp] theorem State.setHead_rdata (s : State) (q sub v : Nat) : (s.setHead q sub v).rdata = s.rdata := rfl
@[simp] theorem State.setHead_routes (s : State) (q sub v : Nat) : (s.setHead q sub v).routes = s.routes := rfl
@[simp] theorem State.setHead_boot (s : State) (q sub v : Nat) : (s.setHead q sub v).boot = s.boot := rfl
@[simp] theorem State.setHead_keep (s : State) (q sub v : Nat) : (s.setHead q sub v).keep = s.keep := rfl
@[simp] theorem State.setHead_timers (s : State) (q sub v : Nat) : (s.setHead q sub v).timers = s.timers := rfl
@[simp] theorem State.setHead_mbox (s : State) (q sub v : Nat) : (s.setHead q sub v).mbox = s.mbox := rfl
@[simp] theorem State.setHead_mboxTag (s : State) (q sub v : Nat) : (s.setHead q sub v).mboxTag = s.mboxTag := rfl
@[simp] theorem State.setHead_bus (s : State) (q sub v : Nat) : (s.setHead q sub v).bus = s.bus := rfl
@[simp] theorem State.setHead_job (s : State) (q sub v : Nat) : (s.setHead q sub v).job = s.job := rfl
@[simp] theorem State.setHead_step (s : State) (q sub v : Nat) : (s.setHead q sub v).step = s.step := rfl
@[simp] theorem State.setHead_ports (s : State) (q sub v : Nat) : (s.setHead q sub v).ports = s.ports := rfl
@[simp] theorem State.setHead_sieves (s : State) (q sub v : Nat) : (s.setHead q sub v).sieves = s.sieves := rfl
@[simp] theorem State.setHead_clus (s : State) (q sub v : Nat) : (s.setHead q sub v).clus = s.clus := rfl
@[simp] theorem State.setHead_tiles (s : State) (q sub v : Nat) : (s.setHead q sub v).tiles = s.tiles := rfl
@[simp] theorem State.setHead_swarm (s : State) (q sub v : Nat) : (s.setHead q sub v).swarm = s.swarm := rfl
@[simp] theorem State.setHead_bar (s : State) (q sub v : Nat) : (s.setHead q sub v).bar = s.bar := rfl
@[simp] theorem State.setHead_roster (s : State) (q sub v : Nat) : (s.setHead q sub v).roster = s.roster := rfl
@[simp] theorem State.setHead_links (s : State) (q sub v : Nat) : (s.setHead q sub v).links = s.links := rfl
@[simp] theorem State.setHead_limbo (s : State) (q sub v : Nat) : (s.setHead q sub v).limbo = s.limbo := rfl
@[simp] theorem State.setHead_power (s : State) (q sub v : Nat) : (s.setHead q sub v).power = s.power := rfl
@[simp] theorem State.setHead_tel (s : State) (q sub v : Nat) : (s.setHead q sub v).tel = s.tel := rfl
@[simp] theorem State.setHead_upset (s : State) (q sub v : Nat) : (s.setHead q sub v).upset = s.upset := rfl
@[simp] theorem State.setHead_errs (s : State) (q sub v : Nat) : (s.setHead q sub v).errs = s.errs := rfl
@[simp] theorem State.setHead_outs (s : State) (q sub v : Nat) : (s.setHead q sub v).outs = s.outs := rfl
@[simp] theorem State.setHead_freeCtr (s : State) (q sub v : Nat) : (s.setHead q sub v).freeCtr = s.freeCtr := rfl
@[simp] theorem State.setHead_pending (s : State) (q sub v : Nat) : (s.setHead q sub v).pending = s.pending := rfl
@[simp] theorem State.setHead_expired (s : State) (q sub v : Nat) : (s.setHead q sub v).expired = s.expired := rfl

/-! ### telRd -/

@[simp] theorem State.telRd_chip (s : State) (n : Nat) : (s.telRd n).chip = s.chip := rfl
@[simp] theorem State.telRd_fuses (s : State) (n : Nat) : (s.telRd n).fuses = s.fuses := rfl
@[simp] theorem State.telRd_regs (s : State) (n : Nat) : (s.telRd n).regs = s.regs := rfl
@[simp] theorem State.telRd_effOld (s : State) (n : Nat) : (s.telRd n).effOld = s.effOld := rfl
@[simp] theorem State.telRd_slotOld (s : State) (n : Nat) : (s.telRd n).slotOld = s.slotOld := rfl
@[simp] theorem State.telRd_pairCap (s : State) (n : Nat) : (s.telRd n).pairCap = s.pairCap := rfl
@[simp] theorem State.telRd_pairHeld (s : State) (n : Nat) : (s.telRd n).pairHeld = s.pairHeld := rfl
@[simp] theorem State.telRd_rdata (s : State) (n : Nat) : (s.telRd n).rdata = s.rdata := rfl
@[simp] theorem State.telRd_routes (s : State) (n : Nat) : (s.telRd n).routes = s.routes := rfl
@[simp] theorem State.telRd_boot (s : State) (n : Nat) : (s.telRd n).boot = s.boot := rfl
@[simp] theorem State.telRd_keep (s : State) (n : Nat) : (s.telRd n).keep = s.keep := rfl
@[simp] theorem State.telRd_timers (s : State) (n : Nat) : (s.telRd n).timers = s.timers := rfl
@[simp] theorem State.telRd_mbox (s : State) (n : Nat) : (s.telRd n).mbox = s.mbox := rfl
@[simp] theorem State.telRd_mboxTag (s : State) (n : Nat) : (s.telRd n).mboxTag = s.mboxTag := rfl
@[simp] theorem State.telRd_hive (s : State) (n : Nat) : (s.telRd n).hive = s.hive := rfl
@[simp] theorem State.telRd_bus (s : State) (n : Nat) : (s.telRd n).bus = s.bus := rfl
@[simp] theorem State.telRd_job (s : State) (n : Nat) : (s.telRd n).job = s.job := rfl
@[simp] theorem State.telRd_step (s : State) (n : Nat) : (s.telRd n).step = s.step := rfl
@[simp] theorem State.telRd_ports (s : State) (n : Nat) : (s.telRd n).ports = s.ports := rfl
@[simp] theorem State.telRd_sieves (s : State) (n : Nat) : (s.telRd n).sieves = s.sieves := rfl
@[simp] theorem State.telRd_clus (s : State) (n : Nat) : (s.telRd n).clus = s.clus := rfl
@[simp] theorem State.telRd_tiles (s : State) (n : Nat) : (s.telRd n).tiles = s.tiles := rfl
@[simp] theorem State.telRd_swarm (s : State) (n : Nat) : (s.telRd n).swarm = s.swarm := rfl
@[simp] theorem State.telRd_bar (s : State) (n : Nat) : (s.telRd n).bar = s.bar := rfl
@[simp] theorem State.telRd_roster (s : State) (n : Nat) : (s.telRd n).roster = s.roster := rfl
@[simp] theorem State.telRd_links (s : State) (n : Nat) : (s.telRd n).links = s.links := rfl
@[simp] theorem State.telRd_limbo (s : State) (n : Nat) : (s.telRd n).limbo = s.limbo := rfl
@[simp] theorem State.telRd_power (s : State) (n : Nat) : (s.telRd n).power = s.power := rfl
@[simp] theorem State.telRd_tel (s : State) (n : Nat) : (s.telRd n).tel =
    { s.tel with hiveRd := s.tel.hiveRd + n } := rfl
@[simp] theorem State.telRd_upset (s : State) (n : Nat) : (s.telRd n).upset = s.upset := rfl
@[simp] theorem State.telRd_errs (s : State) (n : Nat) : (s.telRd n).errs = s.errs := rfl
@[simp] theorem State.telRd_outs (s : State) (n : Nat) : (s.telRd n).outs = s.outs := rfl
@[simp] theorem State.telRd_freeCtr (s : State) (n : Nat) : (s.telRd n).freeCtr = s.freeCtr := rfl
@[simp] theorem State.telRd_pending (s : State) (n : Nat) : (s.telRd n).pending = s.pending := rfl
@[simp] theorem State.telRd_expired (s : State) (n : Nat) : (s.telRd n).expired = s.expired := rfl

/-! ### telWr -/

@[simp] theorem State.telWr_chip (s : State) (n : Nat) : (s.telWr n).chip = s.chip := rfl
@[simp] theorem State.telWr_fuses (s : State) (n : Nat) : (s.telWr n).fuses = s.fuses := rfl
@[simp] theorem State.telWr_regs (s : State) (n : Nat) : (s.telWr n).regs = s.regs := rfl
@[simp] theorem State.telWr_effOld (s : State) (n : Nat) : (s.telWr n).effOld = s.effOld := rfl
@[simp] theorem State.telWr_slotOld (s : State) (n : Nat) : (s.telWr n).slotOld = s.slotOld := rfl
@[simp] theorem State.telWr_pairCap (s : State) (n : Nat) : (s.telWr n).pairCap = s.pairCap := rfl
@[simp] theorem State.telWr_pairHeld (s : State) (n : Nat) : (s.telWr n).pairHeld = s.pairHeld := rfl
@[simp] theorem State.telWr_rdata (s : State) (n : Nat) : (s.telWr n).rdata = s.rdata := rfl
@[simp] theorem State.telWr_routes (s : State) (n : Nat) : (s.telWr n).routes = s.routes := rfl
@[simp] theorem State.telWr_boot (s : State) (n : Nat) : (s.telWr n).boot = s.boot := rfl
@[simp] theorem State.telWr_keep (s : State) (n : Nat) : (s.telWr n).keep = s.keep := rfl
@[simp] theorem State.telWr_timers (s : State) (n : Nat) : (s.telWr n).timers = s.timers := rfl
@[simp] theorem State.telWr_mbox (s : State) (n : Nat) : (s.telWr n).mbox = s.mbox := rfl
@[simp] theorem State.telWr_mboxTag (s : State) (n : Nat) : (s.telWr n).mboxTag = s.mboxTag := rfl
@[simp] theorem State.telWr_hive (s : State) (n : Nat) : (s.telWr n).hive = s.hive := rfl
@[simp] theorem State.telWr_bus (s : State) (n : Nat) : (s.telWr n).bus = s.bus := rfl
@[simp] theorem State.telWr_job (s : State) (n : Nat) : (s.telWr n).job = s.job := rfl
@[simp] theorem State.telWr_step (s : State) (n : Nat) : (s.telWr n).step = s.step := rfl
@[simp] theorem State.telWr_ports (s : State) (n : Nat) : (s.telWr n).ports = s.ports := rfl
@[simp] theorem State.telWr_sieves (s : State) (n : Nat) : (s.telWr n).sieves = s.sieves := rfl
@[simp] theorem State.telWr_clus (s : State) (n : Nat) : (s.telWr n).clus = s.clus := rfl
@[simp] theorem State.telWr_tiles (s : State) (n : Nat) : (s.telWr n).tiles = s.tiles := rfl
@[simp] theorem State.telWr_swarm (s : State) (n : Nat) : (s.telWr n).swarm = s.swarm := rfl
@[simp] theorem State.telWr_bar (s : State) (n : Nat) : (s.telWr n).bar = s.bar := rfl
@[simp] theorem State.telWr_roster (s : State) (n : Nat) : (s.telWr n).roster = s.roster := rfl
@[simp] theorem State.telWr_links (s : State) (n : Nat) : (s.telWr n).links = s.links := rfl
@[simp] theorem State.telWr_limbo (s : State) (n : Nat) : (s.telWr n).limbo = s.limbo := rfl
@[simp] theorem State.telWr_power (s : State) (n : Nat) : (s.telWr n).power = s.power := rfl
@[simp] theorem State.telWr_tel (s : State) (n : Nat) : (s.telWr n).tel =
    { s.tel with hiveWr := s.tel.hiveWr + n } := rfl
@[simp] theorem State.telWr_upset (s : State) (n : Nat) : (s.telWr n).upset = s.upset := rfl
@[simp] theorem State.telWr_errs (s : State) (n : Nat) : (s.telWr n).errs = s.errs := rfl
@[simp] theorem State.telWr_outs (s : State) (n : Nat) : (s.telWr n).outs = s.outs := rfl
@[simp] theorem State.telWr_freeCtr (s : State) (n : Nat) : (s.telWr n).freeCtr = s.freeCtr := rfl
@[simp] theorem State.telWr_pending (s : State) (n : Nat) : (s.telWr n).pending = s.pending := rfl
@[simp] theorem State.telWr_expired (s : State) (n : Nat) : (s.telWr n).expired = s.expired := rfl

/-! ### setTag -/

@[simp] theorem State.setTag_chip (s : State) (q i : Nat) (x : Tag) : (s.setTag q i x).chip = s.chip := rfl
@[simp] theorem State.setTag_fuses (s : State) (q i : Nat) (x : Tag) : (s.setTag q i x).fuses = s.fuses := rfl
@[simp] theorem State.setTag_regs (s : State) (q i : Nat) (x : Tag) : (s.setTag q i x).regs = s.regs := rfl
@[simp] theorem State.setTag_effOld (s : State) (q i : Nat) (x : Tag) : (s.setTag q i x).effOld = s.effOld := rfl
@[simp] theorem State.setTag_slotOld (s : State) (q i : Nat) (x : Tag) : (s.setTag q i x).slotOld = s.slotOld := rfl
@[simp] theorem State.setTag_pairCap (s : State) (q i : Nat) (x : Tag) : (s.setTag q i x).pairCap = s.pairCap := rfl
@[simp] theorem State.setTag_pairHeld (s : State) (q i : Nat) (x : Tag) : (s.setTag q i x).pairHeld = s.pairHeld := rfl
@[simp] theorem State.setTag_rdata (s : State) (q i : Nat) (x : Tag) : (s.setTag q i x).rdata = s.rdata := rfl
@[simp] theorem State.setTag_routes (s : State) (q i : Nat) (x : Tag) : (s.setTag q i x).routes = s.routes := rfl
@[simp] theorem State.setTag_boot (s : State) (q i : Nat) (x : Tag) : (s.setTag q i x).boot = s.boot := rfl
@[simp] theorem State.setTag_keep (s : State) (q i : Nat) (x : Tag) : (s.setTag q i x).keep = s.keep := rfl
@[simp] theorem State.setTag_timers (s : State) (q i : Nat) (x : Tag) : (s.setTag q i x).timers = s.timers := rfl
@[simp] theorem State.setTag_mbox (s : State) (q i : Nat) (x : Tag) : (s.setTag q i x).mbox = s.mbox := rfl
@[simp] theorem State.setTag_mboxTag (s : State) (q i : Nat) (x : Tag) : (s.setTag q i x).mboxTag = s.mboxTag := rfl
@[simp] theorem State.setTag_job (s : State) (q i : Nat) (x : Tag) : (s.setTag q i x).job = s.job := rfl
@[simp] theorem State.setTag_step (s : State) (q i : Nat) (x : Tag) : (s.setTag q i x).step = s.step := rfl
@[simp] theorem State.setTag_ports (s : State) (q i : Nat) (x : Tag) : (s.setTag q i x).ports = s.ports := rfl
@[simp] theorem State.setTag_sieves (s : State) (q i : Nat) (x : Tag) : (s.setTag q i x).sieves = s.sieves := rfl
@[simp] theorem State.setTag_clus (s : State) (q i : Nat) (x : Tag) : (s.setTag q i x).clus = s.clus := rfl
@[simp] theorem State.setTag_tiles (s : State) (q i : Nat) (x : Tag) : (s.setTag q i x).tiles = s.tiles := rfl
@[simp] theorem State.setTag_swarm (s : State) (q i : Nat) (x : Tag) : (s.setTag q i x).swarm = s.swarm := rfl
@[simp] theorem State.setTag_bar (s : State) (q i : Nat) (x : Tag) : (s.setTag q i x).bar = s.bar := rfl
@[simp] theorem State.setTag_roster (s : State) (q i : Nat) (x : Tag) : (s.setTag q i x).roster = s.roster := rfl
@[simp] theorem State.setTag_links (s : State) (q i : Nat) (x : Tag) : (s.setTag q i x).links = s.links := rfl
@[simp] theorem State.setTag_limbo (s : State) (q i : Nat) (x : Tag) : (s.setTag q i x).limbo = s.limbo := rfl
@[simp] theorem State.setTag_power (s : State) (q i : Nat) (x : Tag) : (s.setTag q i x).power = s.power := rfl
@[simp] theorem State.setTag_upset (s : State) (q i : Nat) (x : Tag) : (s.setTag q i x).upset = s.upset := rfl
@[simp] theorem State.setTag_errs (s : State) (q i : Nat) (x : Tag) : (s.setTag q i x).errs = s.errs := rfl
@[simp] theorem State.setTag_outs (s : State) (q i : Nat) (x : Tag) : (s.setTag q i x).outs = s.outs := rfl
@[simp] theorem State.setTag_freeCtr (s : State) (q i : Nat) (x : Tag) : (s.setTag q i x).freeCtr = s.freeCtr := rfl
@[simp] theorem State.setTag_pending (s : State) (q i : Nat) (x : Tag) : (s.setTag q i x).pending = s.pending := rfl
@[simp] theorem State.setTag_expired (s : State) (q i : Nat) (x : Tag) : (s.setTag q i x).expired = s.expired := rfl

/-! ### notePeak -/

@[simp] theorem State.notePeak_chip (s : State) (q : Nat) : (s.notePeak q).chip = s.chip := rfl
@[simp] theorem State.notePeak_fuses (s : State) (q : Nat) : (s.notePeak q).fuses = s.fuses := rfl
@[simp] theorem State.notePeak_regs (s : State) (q : Nat) : (s.notePeak q).regs = s.regs := rfl
@[simp] theorem State.notePeak_effOld (s : State) (q : Nat) : (s.notePeak q).effOld = s.effOld := rfl
@[simp] theorem State.notePeak_slotOld (s : State) (q : Nat) : (s.notePeak q).slotOld = s.slotOld := rfl
@[simp] theorem State.notePeak_pairCap (s : State) (q : Nat) : (s.notePeak q).pairCap = s.pairCap := rfl
@[simp] theorem State.notePeak_pairHeld (s : State) (q : Nat) : (s.notePeak q).pairHeld = s.pairHeld := rfl
@[simp] theorem State.notePeak_rdata (s : State) (q : Nat) : (s.notePeak q).rdata = s.rdata := rfl
@[simp] theorem State.notePeak_routes (s : State) (q : Nat) : (s.notePeak q).routes = s.routes := rfl
@[simp] theorem State.notePeak_boot (s : State) (q : Nat) : (s.notePeak q).boot = s.boot := rfl
@[simp] theorem State.notePeak_keep (s : State) (q : Nat) : (s.notePeak q).keep = s.keep := rfl
@[simp] theorem State.notePeak_timers (s : State) (q : Nat) : (s.notePeak q).timers = s.timers := rfl
@[simp] theorem State.notePeak_mbox (s : State) (q : Nat) : (s.notePeak q).mbox = s.mbox := rfl
@[simp] theorem State.notePeak_mboxTag (s : State) (q : Nat) : (s.notePeak q).mboxTag = s.mboxTag := rfl
@[simp] theorem State.notePeak_bus (s : State) (q : Nat) : (s.notePeak q).bus = s.bus := rfl
@[simp] theorem State.notePeak_job (s : State) (q : Nat) : (s.notePeak q).job = s.job := rfl
@[simp] theorem State.notePeak_step (s : State) (q : Nat) : (s.notePeak q).step = s.step := rfl
@[simp] theorem State.notePeak_ports (s : State) (q : Nat) : (s.notePeak q).ports = s.ports := rfl
@[simp] theorem State.notePeak_sieves (s : State) (q : Nat) : (s.notePeak q).sieves = s.sieves := rfl
@[simp] theorem State.notePeak_clus (s : State) (q : Nat) : (s.notePeak q).clus = s.clus := rfl
@[simp] theorem State.notePeak_tiles (s : State) (q : Nat) : (s.notePeak q).tiles = s.tiles := rfl
@[simp] theorem State.notePeak_swarm (s : State) (q : Nat) : (s.notePeak q).swarm = s.swarm := rfl
@[simp] theorem State.notePeak_bar (s : State) (q : Nat) : (s.notePeak q).bar = s.bar := rfl
@[simp] theorem State.notePeak_roster (s : State) (q : Nat) : (s.notePeak q).roster = s.roster := rfl
@[simp] theorem State.notePeak_links (s : State) (q : Nat) : (s.notePeak q).links = s.links := rfl
@[simp] theorem State.notePeak_limbo (s : State) (q : Nat) : (s.notePeak q).limbo = s.limbo := rfl
@[simp] theorem State.notePeak_power (s : State) (q : Nat) : (s.notePeak q).power = s.power := rfl
@[simp] theorem State.notePeak_tel (s : State) (q : Nat) : (s.notePeak q).tel = s.tel := rfl
@[simp] theorem State.notePeak_upset (s : State) (q : Nat) : (s.notePeak q).upset = s.upset := rfl
@[simp] theorem State.notePeak_errs (s : State) (q : Nat) : (s.notePeak q).errs = s.errs := rfl
@[simp] theorem State.notePeak_outs (s : State) (q : Nat) : (s.notePeak q).outs = s.outs := rfl
@[simp] theorem State.notePeak_freeCtr (s : State) (q : Nat) : (s.notePeak q).freeCtr = s.freeCtr := rfl
@[simp] theorem State.notePeak_pending (s : State) (q : Nat) : (s.notePeak q).pending = s.pending := rfl
@[simp] theorem State.notePeak_expired (s : State) (q : Nat) : (s.notePeak q).expired = s.expired := rfl

/-! ### noteOwn -/

@[simp] theorem State.noteOwn_chip (s : State) (q n : Nat) : (s.noteOwn q n).chip = s.chip := rfl
@[simp] theorem State.noteOwn_fuses (s : State) (q n : Nat) : (s.noteOwn q n).fuses = s.fuses := rfl
@[simp] theorem State.noteOwn_regs (s : State) (q n : Nat) : (s.noteOwn q n).regs = s.regs := rfl
@[simp] theorem State.noteOwn_effOld (s : State) (q n : Nat) : (s.noteOwn q n).effOld = s.effOld := rfl
@[simp] theorem State.noteOwn_slotOld (s : State) (q n : Nat) : (s.noteOwn q n).slotOld = s.slotOld := rfl
@[simp] theorem State.noteOwn_pairCap (s : State) (q n : Nat) : (s.noteOwn q n).pairCap = s.pairCap := rfl
@[simp] theorem State.noteOwn_pairHeld (s : State) (q n : Nat) : (s.noteOwn q n).pairHeld = s.pairHeld := rfl
@[simp] theorem State.noteOwn_rdata (s : State) (q n : Nat) : (s.noteOwn q n).rdata = s.rdata := rfl
@[simp] theorem State.noteOwn_routes (s : State) (q n : Nat) : (s.noteOwn q n).routes = s.routes := rfl
@[simp] theorem State.noteOwn_boot (s : State) (q n : Nat) : (s.noteOwn q n).boot = s.boot := rfl
@[simp] theorem State.noteOwn_keep (s : State) (q n : Nat) : (s.noteOwn q n).keep = s.keep := rfl
@[simp] theorem State.noteOwn_timers (s : State) (q n : Nat) : (s.noteOwn q n).timers = s.timers := rfl
@[simp] theorem State.noteOwn_mbox (s : State) (q n : Nat) : (s.noteOwn q n).mbox = s.mbox := rfl
@[simp] theorem State.noteOwn_mboxTag (s : State) (q n : Nat) : (s.noteOwn q n).mboxTag = s.mboxTag := rfl
@[simp] theorem State.noteOwn_bus (s : State) (q n : Nat) : (s.noteOwn q n).bus = s.bus := rfl
@[simp] theorem State.noteOwn_job (s : State) (q n : Nat) : (s.noteOwn q n).job = s.job := rfl
@[simp] theorem State.noteOwn_step (s : State) (q n : Nat) : (s.noteOwn q n).step = s.step := rfl
@[simp] theorem State.noteOwn_ports (s : State) (q n : Nat) : (s.noteOwn q n).ports = s.ports := rfl
@[simp] theorem State.noteOwn_sieves (s : State) (q n : Nat) : (s.noteOwn q n).sieves = s.sieves := rfl
@[simp] theorem State.noteOwn_clus (s : State) (q n : Nat) : (s.noteOwn q n).clus = s.clus := rfl
@[simp] theorem State.noteOwn_tiles (s : State) (q n : Nat) : (s.noteOwn q n).tiles = s.tiles := rfl
@[simp] theorem State.noteOwn_swarm (s : State) (q n : Nat) : (s.noteOwn q n).swarm = s.swarm := rfl
@[simp] theorem State.noteOwn_bar (s : State) (q n : Nat) : (s.noteOwn q n).bar = s.bar := rfl
@[simp] theorem State.noteOwn_roster (s : State) (q n : Nat) : (s.noteOwn q n).roster = s.roster := rfl
@[simp] theorem State.noteOwn_links (s : State) (q n : Nat) : (s.noteOwn q n).links = s.links := rfl
@[simp] theorem State.noteOwn_limbo (s : State) (q n : Nat) : (s.noteOwn q n).limbo = s.limbo := rfl
@[simp] theorem State.noteOwn_power (s : State) (q n : Nat) : (s.noteOwn q n).power = s.power := rfl
@[simp] theorem State.noteOwn_tel (s : State) (q n : Nat) : (s.noteOwn q n).tel = s.tel := rfl
@[simp] theorem State.noteOwn_upset (s : State) (q n : Nat) : (s.noteOwn q n).upset = s.upset := rfl
@[simp] theorem State.noteOwn_errs (s : State) (q n : Nat) : (s.noteOwn q n).errs = s.errs := rfl
@[simp] theorem State.noteOwn_outs (s : State) (q n : Nat) : (s.noteOwn q n).outs = s.outs := rfl
@[simp] theorem State.noteOwn_freeCtr (s : State) (q n : Nat) : (s.noteOwn q n).freeCtr = s.freeCtr := rfl
@[simp] theorem State.noteOwn_pending (s : State) (q n : Nat) : (s.noteOwn q n).pending = s.pending := rfl
@[simp] theorem State.noteOwn_expired (s : State) (q n : Nat) : (s.noteOwn q n).expired = s.expired := rfl

/-! ### queueTrain -/

@[simp] theorem State.queueTrain_chip (s : State) (n : Nat) (x : W8) : (s.queueTrain n x).chip = s.chip := rfl
@[simp] theorem State.queueTrain_fuses (s : State) (n : Nat) (x : W8) : (s.queueTrain n x).fuses = s.fuses := rfl
@[simp] theorem State.queueTrain_regs (s : State) (n : Nat) (x : W8) : (s.queueTrain n x).regs = s.regs := rfl
@[simp] theorem State.queueTrain_effOld (s : State) (n : Nat) (x : W8) : (s.queueTrain n x).effOld = s.effOld := rfl
@[simp] theorem State.queueTrain_slotOld (s : State) (n : Nat) (x : W8) : (s.queueTrain n x).slotOld = s.slotOld := rfl
@[simp] theorem State.queueTrain_pairCap (s : State) (n : Nat) (x : W8) : (s.queueTrain n x).pairCap = s.pairCap := rfl
@[simp] theorem State.queueTrain_pairHeld (s : State) (n : Nat) (x : W8) : (s.queueTrain n x).pairHeld = s.pairHeld := rfl
@[simp] theorem State.queueTrain_rdata (s : State) (n : Nat) (x : W8) : (s.queueTrain n x).rdata = s.rdata := rfl
@[simp] theorem State.queueTrain_routes (s : State) (n : Nat) (x : W8) : (s.queueTrain n x).routes = s.routes := rfl
@[simp] theorem State.queueTrain_boot (s : State) (n : Nat) (x : W8) : (s.queueTrain n x).boot = s.boot := rfl
@[simp] theorem State.queueTrain_keep (s : State) (n : Nat) (x : W8) : (s.queueTrain n x).keep = s.keep := rfl
@[simp] theorem State.queueTrain_timers (s : State) (n : Nat) (x : W8) : (s.queueTrain n x).timers = s.timers := rfl
@[simp] theorem State.queueTrain_mbox (s : State) (n : Nat) (x : W8) : (s.queueTrain n x).mbox = s.mbox := rfl
@[simp] theorem State.queueTrain_mboxTag (s : State) (n : Nat) (x : W8) : (s.queueTrain n x).mboxTag = s.mboxTag := rfl
@[simp] theorem State.queueTrain_hive (s : State) (n : Nat) (x : W8) : (s.queueTrain n x).hive = s.hive := rfl
@[simp] theorem State.queueTrain_bus (s : State) (n : Nat) (x : W8) : (s.queueTrain n x).bus = s.bus := rfl
@[simp] theorem State.queueTrain_job (s : State) (n : Nat) (x : W8) : (s.queueTrain n x).job = s.job := rfl
@[simp] theorem State.queueTrain_step (s : State) (n : Nat) (x : W8) : (s.queueTrain n x).step = s.step := rfl
@[simp] theorem State.queueTrain_ports (s : State) (n : Nat) (x : W8) : (s.queueTrain n x).ports = s.ports := rfl
@[simp] theorem State.queueTrain_sieves (s : State) (n : Nat) (x : W8) : (s.queueTrain n x).sieves = s.sieves := rfl
@[simp] theorem State.queueTrain_clus (s : State) (n : Nat) (x : W8) : (s.queueTrain n x).clus = s.clus := rfl
@[simp] theorem State.queueTrain_tiles (s : State) (n : Nat) (x : W8) : (s.queueTrain n x).tiles = s.tiles := rfl
@[simp] theorem State.queueTrain_swarm (s : State) (n : Nat) (x : W8) : (s.queueTrain n x).swarm = s.swarm := rfl
@[simp] theorem State.queueTrain_bar (s : State) (n : Nat) (x : W8) : (s.queueTrain n x).bar = s.bar := rfl
@[simp] theorem State.queueTrain_roster (s : State) (n : Nat) (x : W8) : (s.queueTrain n x).roster = s.roster := rfl
@[simp] theorem State.queueTrain_limbo (s : State) (n : Nat) (x : W8) : (s.queueTrain n x).limbo = s.limbo := rfl
@[simp] theorem State.queueTrain_power (s : State) (n : Nat) (x : W8) : (s.queueTrain n x).power = s.power := rfl
@[simp] theorem State.queueTrain_tel (s : State) (n : Nat) (x : W8) : (s.queueTrain n x).tel = s.tel := rfl
@[simp] theorem State.queueTrain_upset (s : State) (n : Nat) (x : W8) : (s.queueTrain n x).upset = s.upset := rfl
@[simp] theorem State.queueTrain_errs (s : State) (n : Nat) (x : W8) : (s.queueTrain n x).errs = s.errs := rfl
@[simp] theorem State.queueTrain_outs (s : State) (n : Nat) (x : W8) : (s.queueTrain n x).outs = s.outs := rfl
@[simp] theorem State.queueTrain_freeCtr (s : State) (n : Nat) (x : W8) : (s.queueTrain n x).freeCtr = s.freeCtr := rfl
@[simp] theorem State.queueTrain_pending (s : State) (n : Nat) (x : W8) : (s.queueTrain n x).pending = s.pending := rfl
@[simp] theorem State.queueTrain_expired (s : State) (n : Nat) (x : W8) : (s.queueTrain n x).expired = s.expired := rfl

/-! ### mboxAnswered -/

@[simp] theorem State.mboxAnswered_chip (s : State) (op tag : Nat) : (s.mboxAnswered op tag).chip = s.chip := rfl
@[simp] theorem State.mboxAnswered_fuses (s : State) (op tag : Nat) : (s.mboxAnswered op tag).fuses = s.fuses := rfl
@[simp] theorem State.mboxAnswered_regs (s : State) (op tag : Nat) : (s.mboxAnswered op tag).regs = s.regs := rfl
@[simp] theorem State.mboxAnswered_effOld (s : State) (op tag : Nat) : (s.mboxAnswered op tag).effOld = s.effOld := rfl
@[simp] theorem State.mboxAnswered_slotOld (s : State) (op tag : Nat) : (s.mboxAnswered op tag).slotOld = s.slotOld := rfl
@[simp] theorem State.mboxAnswered_pairCap (s : State) (op tag : Nat) : (s.mboxAnswered op tag).pairCap = s.pairCap := rfl
@[simp] theorem State.mboxAnswered_pairHeld (s : State) (op tag : Nat) : (s.mboxAnswered op tag).pairHeld = s.pairHeld := rfl
@[simp] theorem State.mboxAnswered_rdata (s : State) (op tag : Nat) : (s.mboxAnswered op tag).rdata = s.rdata := rfl
@[simp] theorem State.mboxAnswered_routes (s : State) (op tag : Nat) : (s.mboxAnswered op tag).routes = s.routes := rfl
@[simp] theorem State.mboxAnswered_boot (s : State) (op tag : Nat) : (s.mboxAnswered op tag).boot = s.boot := rfl
@[simp] theorem State.mboxAnswered_keep (s : State) (op tag : Nat) : (s.mboxAnswered op tag).keep = s.keep := rfl
@[simp] theorem State.mboxAnswered_timers (s : State) (op tag : Nat) : (s.mboxAnswered op tag).timers = s.timers := rfl
@[simp] theorem State.mboxAnswered_mbox (s : State) (op tag : Nat) : (s.mboxAnswered op tag).mbox =
    s.mbox.filter (fun r => !(r.op == op && r.tag == tag)) := rfl
@[simp] theorem State.mboxAnswered_mboxTag (s : State) (op tag : Nat) : (s.mboxAnswered op tag).mboxTag = s.mboxTag := rfl
@[simp] theorem State.mboxAnswered_hive (s : State) (op tag : Nat) : (s.mboxAnswered op tag).hive = s.hive := rfl
@[simp] theorem State.mboxAnswered_bus (s : State) (op tag : Nat) : (s.mboxAnswered op tag).bus = s.bus := rfl
@[simp] theorem State.mboxAnswered_job (s : State) (op tag : Nat) : (s.mboxAnswered op tag).job = s.job := rfl
@[simp] theorem State.mboxAnswered_step (s : State) (op tag : Nat) : (s.mboxAnswered op tag).step = s.step := rfl
@[simp] theorem State.mboxAnswered_ports (s : State) (op tag : Nat) : (s.mboxAnswered op tag).ports = s.ports := rfl
@[simp] theorem State.mboxAnswered_sieves (s : State) (op tag : Nat) : (s.mboxAnswered op tag).sieves = s.sieves := rfl
@[simp] theorem State.mboxAnswered_clus (s : State) (op tag : Nat) : (s.mboxAnswered op tag).clus = s.clus := rfl
@[simp] theorem State.mboxAnswered_tiles (s : State) (op tag : Nat) : (s.mboxAnswered op tag).tiles = s.tiles := rfl
@[simp] theorem State.mboxAnswered_swarm (s : State) (op tag : Nat) : (s.mboxAnswered op tag).swarm = s.swarm := rfl
@[simp] theorem State.mboxAnswered_bar (s : State) (op tag : Nat) : (s.mboxAnswered op tag).bar = s.bar := rfl
@[simp] theorem State.mboxAnswered_roster (s : State) (op tag : Nat) : (s.mboxAnswered op tag).roster = s.roster := rfl
@[simp] theorem State.mboxAnswered_links (s : State) (op tag : Nat) : (s.mboxAnswered op tag).links = s.links := rfl
@[simp] theorem State.mboxAnswered_limbo (s : State) (op tag : Nat) : (s.mboxAnswered op tag).limbo = s.limbo := rfl
@[simp] theorem State.mboxAnswered_power (s : State) (op tag : Nat) : (s.mboxAnswered op tag).power = s.power := rfl
@[simp] theorem State.mboxAnswered_tel (s : State) (op tag : Nat) : (s.mboxAnswered op tag).tel = s.tel := rfl
@[simp] theorem State.mboxAnswered_upset (s : State) (op tag : Nat) : (s.mboxAnswered op tag).upset = s.upset := rfl
@[simp] theorem State.mboxAnswered_errs (s : State) (op tag : Nat) : (s.mboxAnswered op tag).errs = s.errs := rfl
@[simp] theorem State.mboxAnswered_outs (s : State) (op tag : Nat) : (s.mboxAnswered op tag).outs = s.outs := rfl
@[simp] theorem State.mboxAnswered_freeCtr (s : State) (op tag : Nat) : (s.mboxAnswered op tag).freeCtr = s.freeCtr := rfl
@[simp] theorem State.mboxAnswered_pending (s : State) (op tag : Nat) : (s.mboxAnswered op tag).pending = s.pending := rfl
@[simp] theorem State.mboxAnswered_expired (s : State) (op tag : Nat) : (s.mboxAnswered op tag).expired = s.expired := rfl

/-! ### dma -/

@[simp] theorem State.dma_chip (s : State) (a : Nat) (bs : List Byte) : (s.dma a bs).chip = s.chip := rfl
@[simp] theorem State.dma_fuses (s : State) (a : Nat) (bs : List Byte) : (s.dma a bs).fuses = s.fuses := rfl
@[simp] theorem State.dma_regs (s : State) (a : Nat) (bs : List Byte) : (s.dma a bs).regs = s.regs := rfl
@[simp] theorem State.dma_effOld (s : State) (a : Nat) (bs : List Byte) : (s.dma a bs).effOld = s.effOld := rfl
@[simp] theorem State.dma_slotOld (s : State) (a : Nat) (bs : List Byte) : (s.dma a bs).slotOld = s.slotOld := rfl
@[simp] theorem State.dma_pairCap (s : State) (a : Nat) (bs : List Byte) : (s.dma a bs).pairCap = s.pairCap := rfl
@[simp] theorem State.dma_pairHeld (s : State) (a : Nat) (bs : List Byte) : (s.dma a bs).pairHeld = s.pairHeld := rfl
@[simp] theorem State.dma_rdata (s : State) (a : Nat) (bs : List Byte) : (s.dma a bs).rdata = s.rdata := rfl
@[simp] theorem State.dma_routes (s : State) (a : Nat) (bs : List Byte) : (s.dma a bs).routes = s.routes := rfl
@[simp] theorem State.dma_boot (s : State) (a : Nat) (bs : List Byte) : (s.dma a bs).boot = s.boot := rfl
@[simp] theorem State.dma_keep (s : State) (a : Nat) (bs : List Byte) : (s.dma a bs).keep = s.keep := rfl
@[simp] theorem State.dma_timers (s : State) (a : Nat) (bs : List Byte) : (s.dma a bs).timers = s.timers := rfl
@[simp] theorem State.dma_mbox (s : State) (a : Nat) (bs : List Byte) : (s.dma a bs).mbox = s.mbox := rfl
@[simp] theorem State.dma_mboxTag (s : State) (a : Nat) (bs : List Byte) : (s.dma a bs).mboxTag = s.mboxTag := rfl
@[simp] theorem State.dma_hive (s : State) (a : Nat) (bs : List Byte) : (s.dma a bs).hive = s.hive := rfl
@[simp] theorem State.dma_bus (s : State) (a : Nat) (bs : List Byte) : (s.dma a bs).bus = s.bus := rfl
@[simp] theorem State.dma_job (s : State) (a : Nat) (bs : List Byte) : (s.dma a bs).job = s.job := rfl
@[simp] theorem State.dma_step (s : State) (a : Nat) (bs : List Byte) : (s.dma a bs).step = s.step := rfl
@[simp] theorem State.dma_ports (s : State) (a : Nat) (bs : List Byte) : (s.dma a bs).ports = s.ports := rfl
@[simp] theorem State.dma_sieves (s : State) (a : Nat) (bs : List Byte) : (s.dma a bs).sieves = s.sieves := rfl
@[simp] theorem State.dma_clus (s : State) (a : Nat) (bs : List Byte) : (s.dma a bs).clus = s.clus := rfl
@[simp] theorem State.dma_tiles (s : State) (a : Nat) (bs : List Byte) : (s.dma a bs).tiles = s.tiles := rfl
@[simp] theorem State.dma_swarm (s : State) (a : Nat) (bs : List Byte) : (s.dma a bs).swarm = s.swarm := rfl
@[simp] theorem State.dma_bar (s : State) (a : Nat) (bs : List Byte) : (s.dma a bs).bar = s.bar := rfl
@[simp] theorem State.dma_roster (s : State) (a : Nat) (bs : List Byte) : (s.dma a bs).roster = s.roster := rfl
@[simp] theorem State.dma_links (s : State) (a : Nat) (bs : List Byte) : (s.dma a bs).links = s.links := rfl
@[simp] theorem State.dma_limbo (s : State) (a : Nat) (bs : List Byte) : (s.dma a bs).limbo = s.limbo := rfl
@[simp] theorem State.dma_power (s : State) (a : Nat) (bs : List Byte) : (s.dma a bs).power = s.power := rfl
@[simp] theorem State.dma_tel (s : State) (a : Nat) (bs : List Byte) : (s.dma a bs).tel = s.tel := rfl
@[simp] theorem State.dma_upset (s : State) (a : Nat) (bs : List Byte) : (s.dma a bs).upset = s.upset := rfl
@[simp] theorem State.dma_errs (s : State) (a : Nat) (bs : List Byte) : (s.dma a bs).errs = s.errs := rfl
@[simp] theorem State.dma_outs (s : State) (a : Nat) (bs : List Byte) : (s.dma a bs).outs =
    Out.dmaWrite (s.get F.jobOwnerPort) a bs :: s.outs := rfl
@[simp] theorem State.dma_freeCtr (s : State) (a : Nat) (bs : List Byte) : (s.dma a bs).freeCtr = s.freeCtr := rfl
@[simp] theorem State.dma_pending (s : State) (a : Nat) (bs : List Byte) : (s.dma a bs).pending = s.pending := rfl
@[simp] theorem State.dma_expired (s : State) (a : Nat) (bs : List Byte) : (s.dma a bs).expired = s.expired := rfl

end Sys2Proof.Machine
end

