-- ==== Sys2Proof/Laws/Regs.lean ====
section
/-! SUPPORT. Laws/Regs.lean: reading a field after a write of the register file: the field written, another field of the same
word, and every other register. -/

namespace Sys2Proof.Machine

/-! ### Bit fields -/

theorem getLsbD_setFld (w : Word) (hi lo v i : Nat) (hl : lo ≤ hi) (h32 : i < 32) :
    (setFld w hi lo v).getLsbD i = if lo ≤ i ∧ i ≤ hi then v.testBit (i - lo) else w.getLsbD i := by
  unfold setFld
  simp only [BitVec.getLsbD_or, BitVec.getLsbD_and, BitVec.getLsbD_not, BitVec.getLsbD_ofNat, h32, decide_true,
    Bool.true_and, ← Nat.shiftLeft_eq, Nat.testBit_shiftLeft, Nat.testBit_two_pow_sub_one, Nat.testBit_mod_two_pow]
  by_cases h1 : lo ≤ i
  · by_cases h2 : i ≤ hi
    · have h3 : i - lo < hi + 1 - lo := by omega
      simp [h1, h2, h3]
    · have h3 : ¬ (i - lo < hi + 1 - lo) := by omega
      simp [h1, h2, h3]
  · simp [h1]

theorem testBit_fld (w : Word) (hi lo i : Nat) :
    (fld w hi lo).testBit i = (decide (i < hi + 1 - lo) && w.getLsbD (lo + i)) := by
  unfold fld
  rw [Nat.testBit_mod_two_pow, Nat.testBit_shiftRight, BitVec.testBit_toNat]

/-- A field reads what was written to it, cut to its width. -/
theorem fld_setFld (w : Word) (hi lo v : Nat) (hl : lo ≤ hi) (hi32 : hi < 32) :
    fld (setFld w hi lo v) hi lo = v % 2 ^ (hi + 1 - lo) := by
  apply Nat.eq_of_testBit_eq
  intro i
  rw [testBit_fld, Nat.testBit_mod_two_pow]
  by_cases h : i < hi + 1 - lo
  · have h2 : lo + i < 32 := by omega
    have h3 : lo ≤ lo + i ∧ lo + i ≤ hi := by omega
    simp only [h, decide_true, Bool.true_and]
    rw [getLsbD_setFld w hi lo v _ hl h2, if_pos h3]
    congr 1
    omega
  · simp [h]

/-- A field is not touched by a write of a field beside it. -/
theorem fld_setFld_apart (w : Word) (hi lo v hi' lo' : Nat) (hl : lo ≤ hi) (_hi32 : hi < 32) (h' : hi' < 32)
    (apart : hi' < lo ∨ hi < lo') : fld (setFld w hi lo v) hi' lo' = fld w hi' lo' := by
  apply Nat.eq_of_testBit_eq
  intro i
  rw [testBit_fld, testBit_fld]
  by_cases h : i < hi' + 1 - lo'
  · have h2 : lo' + i < 32 := by omega
    have h3 : ¬ (lo ≤ lo' + i ∧ lo' + i ≤ hi) := by omega
    rw [getLsbD_setFld w hi lo v _ hl h2, if_neg h3]
  · simp [h]

/-! ### Registers -/

theorem State.word_setWord (s : State) (off : Nat) (w : Word) (o : Nat) :
    (s.setWord off w).word o = if regHome o = regHome off then w else s.word o := by
  show SMap.get (regReset s.fuses) (SMap.set (regReset s.fuses) s.regs (regHome off) w) (regHome o) = _
  rw [SMap.get_set]
  rfl

@[simp] theorem State.word_setWord_same (s : State) (off : Nat) (w : Word) : (s.setWord off w).word off = w := by
  rw [State.word_setWord, if_pos rfl]

theorem State.word_setWord_ne (s : State) (off : Nat) (w : Word) (o : Nat) (h : regHome o ≠ regHome off) :
    (s.setWord off w).word o = s.word o := by
  rw [State.word_setWord, if_neg h]

theorem State.get_setWord_ne (s : State) (off : Nat) (w : Word) (f : Fld) (h : regHome f.off ≠ regHome off) :
    (s.setWord off w).get f = s.get f := by
  unfold State.get
  rw [State.word_setWord_ne s off w _ h]

/-- A field reads what was put into it. -/
theorem State.get_put_same (s : State) (f : Fld) (v : Nat) (hl : f.lo ≤ f.hi) (h32 : f.hi < 32) :
    (s.put f v).get f = v % 2 ^ (f.hi + 1 - f.lo) := by
  unfold State.put State.get
  rw [State.word_setWord_same, fld_setFld _ _ _ _ hl h32]

/-- A field of another register is unchanged. -/
theorem State.get_put_ne (s : State) (f g : Fld) (v : Nat) (h : regHome g.off ≠ regHome f.off) :
    (s.put f v).get g = s.get g := State.get_setWord_ne s f.off _ g h

/-- Another field of the same register is unchanged. -/
theorem State.get_put_apart (s : State) (f g : Fld) (v : Nat) (ho : g.off = f.off) (hl : f.lo ≤ f.hi) (hf : f.hi < 32)
    (hg : g.hi < 32) (h : g.hi < f.lo ∨ f.hi < g.lo) : (s.put f v).get g = s.get g := by
  unfold State.put State.get
  rw [ho, State.word_setWord_same, fld_setFld_apart _ _ _ _ _ _ hl hf hg h]

theorem State.word_put_ne (s : State) (f : Fld) (v o : Nat) (h : regHome o ≠ regHome f.off) :
    (s.put f v).word o = s.word o := State.word_setWord_ne s f.off _ o h

theorem State.flag_put_same (s : State) (f : Fld) (v : Nat) (hl : f.lo ≤ f.hi) (h32 : f.hi < 32) :
    (s.put f v).flag f = (v % 2 ^ (f.hi + 1 - f.lo) != 0) := by
  unfold State.flag
  rw [State.get_put_same s f v hl h32]

theorem State.flag_put_ne (s : State) (f g : Fld) (v : Nat) (h : regHome g.off ≠ regHome f.off) :
    (s.put f v).flag g = s.flag g := by
  unfold State.flag
  rw [State.get_put_ne s f g v h]

@[simp] theorem State.word_inc_same (s : State) (off n : Nat) : (s.inc off n).word off = s.word off + BitVec.ofNat 32 n :=
  State.word_setWord_same s off _

theorem State.word_inc_ne (s : State) (off n o : Nat) (h : regHome o ≠ regHome off) :
    (s.inc off n).word o = s.word o := State.word_setWord_ne s off _ o h

theorem State.get_inc_ne (s : State) (off n : Nat) (f : Fld) (h : regHome f.off ≠ regHome off) :
    (s.inc off n).get f = s.get f := State.get_setWord_ne s off _ f h

/-! ### The register file's canonical form -/

theorem State.setWord_regsWf (s : State) (off : Nat) (w : Word) (h : s.regsWf = true) : (s.setWord off w).regsWf = true :=
  SMap.set_wf _ _ _ _ h

/-! ### The memory's canonical form -/

theorem State.hput_memWf (s : State) (a : Nat) (bs : List Byte) (h : Memory.wf s = true) : Memory.wf (s.hput a bs) = true :=
  SMap.write_wf _ _ _ _ h

/-! ### Raising an event (R40) -/

theorem State.raiseTo_regs (s : State) (p b : Nat) :
    (s.raiseTo p b).regs = (s.setWord R.jobEvt (s.word R.jobEvt ||| at_ b 1)).regs := by
  unfold State.raiseTo
  simp only []
  split <;> rfl

/-- Raising an event changes JOB_EVT and what leaves the engine, and nothing else. -/
theorem State.raiseTo_frame (s : State) (p b : Nat) :
    ∃ o, s.raiseTo p b = { s.setWord R.jobEvt (s.word R.jobEvt ||| at_ b 1) with outs := o } := by
  unfold State.raiseTo
  simp only []
  split
  · exact ⟨_, rfl⟩
  · exact ⟨s.outs, rfl⟩

end Sys2Proof.Machine
end

