-- ==== Sys2Proof/Laws/Ops.lean ====
section
/-! SUPPORT. Laws/Ops.lean: what the shared operations can do: running a command, reading and writing the Hive and the Keeper
memories, and the timer bank. -/

namespace Sys2Proof.Machine

/-! ### Running a command -/

theorem State.run_of (s : State) {ok : Bool} (f : State → State) (h : ok = true) : s.run ok f = (f s).fin := by
  simp [State.run, h]

theorem State.run_idle (s : State) {ok : Bool} (f : State → State) (h : ok = false) : s.run ok f = .next s := by
  simp [State.run, h]

theorem State.runAt_of (s : State) {here ok : Bool} (f : State → State) (h : here = true) (k : ok = true) :
    s.runAt here ok f = (f s).fin := by
  simp [State.runAt, State.run, h, k]

theorem State.runAt_absent (s : State) {here : Bool} (ok : Bool) (f : State → State) (h : here = false) :
    s.runAt here ok f = .fault .absentInstance := by
  simp [State.runAt, h]

/-- With no control error nothing follows a command. -/
theorem State.actOnErrors_none (s : State) (h : s.errs = []) : s.actOnErrors = s := by
  simp [State.actOnErrors, h]

theorem State.fin_none (s : State) (h : s.errs = []) : s.fin = .next s := by
  simp [State.fin, State.actOnErrors_none s h]

/-- Every command answers a next state where its instance is there. -/
theorem State.runAt_next (s : State) {here : Bool} (ok : Bool) (f : State → State) (h : here = true) :
    ∃ t, s.runAt here ok f = .next t := by
  cases ok
  · exact ⟨s, by simp [State.runAt, State.run, h]⟩
  · exact ⟨(f s).actOnErrors, by simp [State.runAt, State.run, State.fin, h]⟩

/-! ### Reading a run of a sparse map -/

/-- Entries below a key do not matter to it. -/
theorem SMap.get_dropWhile {α : Type} (d : Nat → α) (m : SMap α) (k j : Nat) (hj : k ≤ j) :
    SMap.get d (m.dropWhile (fun p => decide (p.1 < k))) j = SMap.get d m j := by
  induction m with
  | nil => rfl
  | cons p r ih =>
    obtain ⟨a, v⟩ := p
    by_cases ha : a < k
    · have : a ≠ j := by omega
      simp only [List.dropWhile, ha, decide_true, SMap.get, if_neg this]
      exact ih
    · simp [List.dropWhile, ha]

/-- What is left after the entries below a key starts at or above it. -/
theorem SMap.dropWhile_head {α : Type} (m : SMap α) (k a : Nat) (v : α) (r : SMap α)
    (h : m.dropWhile (fun p => decide (p.1 < k)) = (a, v) :: r) : k ≤ a := by
  induction m with
  | nil => simp at h
  | cons p q ih =>
    obtain ⟨b, w⟩ := p
    by_cases hb : b < k
    · simp only [List.dropWhile, hb, decide_true] at h
      exact ih h
    · simp only [List.dropWhile, hb, decide_false, List.cons.injEq, Prod.mk.injEq] at h
      omega

/-- On a canonical map a read of a run is the read of each key. -/
theorem SMap.read_eq {α : Type} (d : Nat → α) (m : SMap α) (k n : Nat) (h : (m.map (·.1)).Pairwise (· < ·)) :
    SMap.read d m k n = (List.range n).map (fun i => SMap.get d m (k + i)) := by
  induction n generalizing m k with
  | zero => simp [SMap.read]
  | succ n ih =>
    have tail : ∀ q : SMap α, (q.map (·.1)).Pairwise (· < ·) →
        (∀ j, k + 1 ≤ j → SMap.get d q j = SMap.get d m j) →
        SMap.read d q (k + 1) n = (List.range n).map ((fun i => SMap.get d m (k + i)) ∘ Nat.succ) := by
      intro q hq e
      rw [ih q (k + 1) hq]
      apply List.map_congr_left
      intro i _
      rw [e _ (by omega)]
      simp only [Function.comp, Nat.succ_eq_add_one]
      congr 1
      omega
    have sorted : ((m.dropWhile (fun p => decide (p.1 < k))).map (·.1)).Pairwise (· < ·) :=
      h.sublist ((List.dropWhile_sublist _).map _)
    have skip := SMap.get_dropWhile d m k
    rw [List.range_succ_eq_map]
    simp only [List.map_cons, List.map_map, Nat.add_zero]
    cases hq : m.dropWhile (fun p => decide (p.1 < k)) with
    | nil =>
      rw [hq] at skip
      simp only [SMap.read, hq]
      rw [tail [] (by simp) (fun j hj => skip j (by omega)), ← skip k (Nat.le_refl k)]
      rfl
    | cons p r =>
      obtain ⟨a, v⟩ := p
      rw [hq] at skip sorted
      have hka := SMap.dropWhile_head m k a v r hq
      have hr : (r.map (·.1)).Pairwise (· < ·) := by
        simp only [List.map_cons, List.pairwise_cons] at sorted
        exact sorted.2
      by_cases ha : a = k
      · subst ha
        simp only [SMap.read, hq, if_pos]
        rw [← skip a (Nat.le_refl a), tail r hr]
        · simp [SMap.get]
        · intro j hj
          rw [← skip j (by omega)]
          simp only [SMap.get, if_neg (show a ≠ j by omega)]
      · simp only [SMap.read, hq, if_neg ha]
        rw [tail _ sorted (fun j hj => skip j (by omega)), ← skip k (Nat.le_refl k), SMap.get_absent d _ k]
        intro p hp
        simp only [List.map_cons, List.pairwise_cons, List.mem_map, forall_exists_index, and_imp,
          forall_apply_eq_imp_iff₂] at sorted
        rcases List.mem_cons.1 hp with rfl | hp
        · exact ha
        · have := sorted.1 p hp
          omega

/-- The keys of a canonical map rise. -/
theorem SMap.sorted_of_wf {α : Type} [DecidableEq α] (d : Nat → α) (m : SMap α) (h : SMap.wf d m = true) :
    (m.map (·.1)).Pairwise (· < ·) := ((SMap.wf_iff d m).1 h).1

/-! ### The Hive's memory -/

/-- A read of the Hive is the read of each of its bytes. -/
theorem State.hget_eq (s : State) (a n : Nat) (h : Memory.wf s = true) :
    s.hget a n = (List.range n).map (fun i => s.hiveByte (a + i)) :=
  SMap.read_eq _ _ _ _ (SMap.sorted_of_wf _ _ h)

/-- A write of the Hive changes its memory, and heals the damaged words it wholly overwrites, alone. -/
theorem State.hput_frame (s : State) (a : Nat) (bs : List Byte) :
    s.hput a bs = { s with hive := { s.hive with
      mem := (s.hput a bs).hive.mem
      upsets := (s.hput a bs).hive.upsets } } := rfl

@[simp] theorem State.hput_layout (s : State) (a : Nat) (bs : List Byte) : (s.hput a bs).hive.layout = s.hive.layout := rfl

/-- Read after write, at a written byte. -/
theorem State.hiveByte_hput_in (s : State) (a : Nat) (bs : List Byte) (i : Nat) (hi : i < bs.length) :
    (s.hput a bs).hiveByte (a + i) = bs[i] := SMap.get_write_in _ _ _ _ _ hi

/-- Read after write, at every other byte. -/
theorem State.hiveByte_hput_out (s : State) (a : Nat) (bs : List Byte) (b : Nat) (hb : b < a ∨ a + bs.length ≤ b) :
    (s.hput a bs).hiveByte b = s.hiveByte b := SMap.get_write_out _ _ _ _ _ hb

/-- A zeroisation pass leaves a canonical memory. -/
theorem Memory.wf_empty (s : State) (h : s.hive.mem = []) : Memory.wf s = true := by
  simp [Memory.wf, h, SMap.wf]

/-! ### Keeper memories and routes -/

/-- A write of a Keeper's memory keeps it canonical. -/
theorem keeper_write_wf (m : SMap Byte) (a : Nat) (bs : List Byte) (h : SMap.wf zeroByteAt m = true) :
    SMap.wf zeroByteAt (SMap.write zeroByteAt m a bs) = true := SMap.write_wf _ _ _ _ h

/-- A write of the route table keeps it canonical. -/
theorem route_set_wf (m : SMap Word) (k : Nat) (w : Word) (h : SMap.wf routeReset m = true) :
    SMap.wf routeReset (SMap.set routeReset m k w) = true := SMap.set_wf _ _ _ _ h

/-! ### The timer bank -/

/-- Setting a timer changes it alone. -/
theorem State.timer_setTimer (s : State) (i j : Nat) (x : Timer) (hi : i < s.timers.length) :
    (s.setTimer i x).timer j = if j = i then x else s.timer j := by
  unfold State.setTimer State.timer updAt
  simp only []
  by_cases h : j = i
  · subst h
    simp [List.getD_eq_getElem?_getD, hi]
  · have hn : ¬ i = j := fun e => h e.symm
    simp [List.getD_eq_getElem?_getD, h, hn]


/-- A timer that is not armed is never due. -/
theorem State.timerHit_off (s : State) (i : Nat) (h : (s.timer i).armed = false) : s.timerHit i = false := by
  simp [State.timerHit, h]

end Sys2Proof.Machine
end

