-- ==== Sys2Proof/WellFormed.lean ====
section
/-! DEFINITION. WellFormed.lean: which commands name something that exists and carry words and bytes of the lengths that the
spec gives them. -/

namespace Sys2Proof

/-- A host port (R37, R404). -/
def okPort (p : Nat) : Bool := decide (p < 4)

/-- A region or die port of either grade (R2). -/
def okRegion (a : Nat) : Bool := decide (a < 4)

def okCluster (c : Nat) : Bool := decide (c < 32)

def okLink (n : Nat) : Bool := decide (n < 64)

def okHalf (l h : Nat) : Bool := decide (l < 256) && decide (h < 2)

/-- An offset of the 1 MiB window (R6). -/
def okOff (off : Nat) : Bool := decide (off < 0x100000)

/-- A mailbox message of 16 words (R477). -/
def okMsg (m : List Word) : Bool := m.length == 16

/-- A die-port message: its body is LEN × 16 bytes (R22). -/
def okBody (h : W8) (body : List Byte) : Bool := body.length == 16 * (h.w0.toNat % 2 ^ 20)

/-- A flit body (R262). -/
def okFlit (body : List Byte) : Bool := body.length == 240

def okSlot (b : Option (List Byte)) : Bool :=
  match b with
  | some bs => bs.length == 256
  | none => true

def okImage (b : Option (List Byte)) : Bool :=
  match b with
  | some bs => decide (bs.length ≤ 0x2000000)
  | none => true

/-- A request names a Keeper and an address of its own. -/
def okDbg (r : DbgReq) : Bool :=
  match r with
  | .hiveRead a => decide (a % 32 = 0)
  | .hiveWrite a d => decide (a % 32 = 0) && d.length == 32
  | .keeperRead k a => decide (k < 9) && decide (a % 8 = 0)
  | .keeperWrite k a d => decide (k < 9) && decide (a % 8 = 0) && d.length == 8
  | .regRead off => okOff off
  | .regWrite off _ => okOff off

/-- A command is well formed. -/
def Instr.wf (i : Instr) : Bool :=
  match i with
  | .erpRstNAssert => true
  | .erpRstNRelease => true
  | .erpPwrGoodFall => true
  | .s1Entry _ => true
  | .bootKeyRsp msg => okMsg msg
  | .imageSlotReadDone data => okImage data
  | .measureAck msg => okMsg msg
  | .keeperReadyTimeout => true
  | .preparationDone _ => true
  | .hiveZeroisationDone => true
  | .bootFleetWrite p _ => okPort p
  | .syncInEdge _ => true
  | .svcDrain => true
  | .drainLedBlink => true
  | .thmAlert => true
  | .fecCorrPulse n => okLink n
  | .regWrite p off _ => okPort p && okOff off
  | .regBadAccess p _ off _ => okPort p && okOff off
  | .pairLoRead p off => okPort p && okOff off
  | .pairHiRead p off => okPort p && okOff off
  | .pairLoWrite p off _ => okPort p && okOff off
  | .pairHiWrite p off _ => okPort p && okOff off
  | .jobEvtClear p _ => okPort p
  | .rasErrFirstClear p _ => okPort p
  | .whiskScaleSet p _ => okPort p
  | .cluFlushStream p c _ => okPort p && okCluster c
  | .cluFlushAll p c _ => okPort p && okCluster c
  | .cluEvtRdWrite p c _ => okPort p && okCluster c
  | .telSnapRequest p _ => okPort p
  | .telSample => true
  | .keeperTick => true
  | .dbgRead p _ => okPort p
  | .dbgWrite p _ => okPort p
  | .dbgAccessDone => true
  | .dbgKeeperHalt p _ => okPort p
  | .jobStart p => okPort p
  | .jobResume p => okPort p
  | .jobReload p => okPort p
  | .jobAbort p => okPort p
  | .jobCmdIgnored p _ => okPort p
  | .modelLoadDone _ => true
  | .recipePoll => true
  | .recipeReadDone slot _ => okSlot slot
  | .dmaReadTimeout (.segment i) => decide (i < 1024)
  | .dmaReadTimeout _ => true
  | .saveDone => true
  | .stepDeadlineExpiry => true
  | .jobIdleTimeout => true
  | .hsTile a h body => okRegion a && okBody h body
  | .expResult a h body => okRegion a && okBody h body
  | .swarmIn a h body => okRegion a && okBody h body
  | .creditRx a h body => okRegion a && okBody h body
  | .creditSend a cls => okRegion a && decide (cls < 3)
  | .sieveTileLoadStart a => okRegion a
  | .sievePageFetchDone a _ => okRegion a
  | .sieveRampStart a => okRegion a
  | .sieveRampStep a => okRegion a
  | .scoringTokenDone a _ => okRegion a
  | .capacityPassStart layer half => okHalf layer half
  | .capacityPassEnd layer half => okHalf layer half
  | .whiskPayloadWritten a => okRegion a
  | .whiskResultConverted a => okRegion a
  | .hiveAllocGrant q _ => decide (q < 6)
  | .hiveRefresh ch => decide (ch < 4096)
  | .cluPacketHandover c => okCluster c
  | .cluManifestSend layer half => okHalf layer half
  | .dispatchPacketRx n => okLink n
  | .manifestRx n => okLink n
  | .resultPacketRx n => okLink n
  | .cutThroughRelease n vc => okLink n && decide (vc < 4)
  | .tileAppend c => okCluster c
  | .expTileSend a => okRegion a
  | .tileManifestSend a => okRegion a
  | .ladleCombineToken a _ => okRegion a
  | .ladleAddResult a => okRegion a
  | .combResultSend a => okRegion a
  | .swarmChunkOpen => true
  | .swarmChunkRx n => okLink n
  | .swarmNoticeRx n => okLink n
  | .swarmOutSend a => okRegion a
  | .swarmSignalSend a => okRegion a
  | .arriveRx n _ => okLink n
  | .releaseRx n _ => okLink n
  | .barrierFire _ => true
  | .barrierTimeout => true
  | .rosterRevExpiry => true
  | .revStart n => okLink n
  | .rosterComputeDone => true
  | .revVote n => okLink n
  | .revCommit n => okLink n
  | .revAbort n => okLink n
  | .loss n => okLink n
  | .leave n => okLink n
  | .joinReq n => okLink n
  | .joinAck n => okLink n
  | .rosterXfer n => okLink n
  | .lossDetect pkg => decide (pkg < 512)
  | .isolation => true
  | .joinRetry => true
  | .laneChange n _ => okLink n
  | .linkTrainTimeout n => okLink n
  | .linkIdleHoldEnd n => okLink n
  | .linkHelloTimer n => okLink n
  | .hello n _ => okLink n
  | .helloAck n _ => okLink n
  | .echoReq n _ _ => okLink n
  | .echoRsp n _ _ => okLink n
  | .linkEchoTimer n _ => okLink n
  | .dataFlitRx n _ body => okLink n && okFlit body
  | .ctrlFlitRx n _ => okLink n
  | .badFlitRx n => okLink n
  | .flitSlotGrant n _ => okLink n
  | .linkRetryTimeout n => okLink n
  | .linkAliveTimeout n => okLink n
  | .linkKeepalive n => okLink n
  | .linkCreditStall n vc => okLink n && decide (vc < 4)
  | .linkDeadTimeout n => okLink n
  | .resync n => okLink n
  | .keySet msg => okMsg msg
  | .mailboxTimeout => true
  | .e1Entry => true
  | .e2Entry => true
  | .e3Entry => true
  | .wakeTimer => true
  | .wakeComplete => true
  | .earlyWake => true
  | .keeperScrub k _ => decide (k < 9)
  | .dieportReservedMsg a h body => okRegion a && okBody h body
  | .rotLifecycleReport _ => true
  | .debugPortRequest r => okDbg r
  | .mailboxBadMessage _ => true

end Sys2Proof
end

