-- ==== Sys2Proof/Tests/Slice0.lean ====
section
/-! SUPPORT. Tests/Slice0.lean: small tests of one command each, on states built from reset: the ill-formed commands that
WellFormed refuses, and, for each statement of Certificates/Slice0/Obligations.lean, states and operands that meet its
hypotheses together. Expected values come from the rules named. -/

open Sys2Proof Sys2Proof.Machine

namespace Sys2Proof.Tests

set_option Elab.async false
set_option maxRecDepth 8192

/-- The next state answers a test. -/
def nexts (r : Result) (f : State → Bool) : Bool :=
  match r with
  | .next t => f t
  | _ => false

/-- A command stops on an absent instance. -/
def absent (r : Result) : Bool :=
  match r with
  | .fault _ => true
  | _ => false

/-- Two lists of the Hive's bytes are the same, walked from the front. -/
def sameMem : List (Nat × Byte) → List (Nat × Byte) → Bool
  | [], [] => true
  | x :: xs, y :: ys => match x.1 == y.1 && x.2 == y.2 with
    | true => sameMem xs ys
    | false => false
  | _, _ => false

/-- Two Hives are the same. -/
def sameHive (a b : Hive) : Bool := sameMem a.mem b.mem && decide ({ a with mem := [] } = { b with mem := [] })

/-- The engine in S2, OPEN, with its image accepted, at 1,000 s, with no job. -/
def up : State :=
  (((({ State.reset with chip := { Chip.reset with fastOn := true, now := 1000000000000 } } : State).put F.bootStageStage 2).put
    F.bootLockLock 1).put F.hiveZeroBusy 0).put
    F.secLifecycleState 0

/-- The Hive's bytes written out. -/
def withMem (s : State) (m : List (Nat × Byte)) : State := { s with hive := { s.hive with mem := m } }

/-- Step runs the front command with the queue's rest. -/
theorem test_step_pops :
    nexts (step { up with pending := [Instr.thmAlert, Instr.telSample] }) (fun t => decide (
      t.word R.rasThmCnt = 1 ∧
      t.pending = [Instr.telSample])) = true := by decide +kernel

/-- Log entry 2: an empty queue is one AON tick of 10 ns. -/
theorem test_empty_queue :
    up.pending = [] ∧
    up.expired = [] ∧
    up.chip.inReset = false ∧
    nexts (step up) (fun t => decide (
      t.chip.now = 1000000000010)) = true := by decide +kernel

/-- An edge of erp_sync_in waits behind an expiry. -/
def busyTick : State := { up with pending := [.syncInEdge 20] }

/-- R455: the expiry waits for the tick's event, and compares at the tick's end. -/
theorem test_deferred_expiry :
    busyTick.cycleOver = false ∧
    up.hasLink 63 = true ∧
    nexts (exec (.linkRetryTimeout 63) busyTick) (fun t => decide (
      t.expired = [Instr.linkRetryTimeout 63] ∧
      t.regs = up.regs)) = true ∧
    nexts (exec .drainLedBlink busyTick) (fun t => decide (
      t.expired = [Instr.drainLedBlink] ∧ t.chip = up.chip)) = true ∧
    nexts (step { up with expired := [.linkRetryTimeout 63] }) (fun t => decide (
      t.expired = [] ∧ t.chip.now = 1000000000010)) = true := by decide +kernel

theorem test_empty_queue_in_reset :
    ({ up with chip := { up.chip with inReset := true } } : State).pending = [] ∧
    ({ up with chip := { up.chip with inReset := true } } : State).chip.inReset = true ∧
    nexts (step ({ up with chip := { up.chip with inReset := true } } : State)) (fun t => decide (
      t = { up with chip := { up.chip with inReset := true } })) = true := by decide +kernel

/-- A reserved die-port message is a control error (R25); none is left after the step. -/
theorem test_settles_errors :
    up.errs = [] ∧
    nexts (step { up with pending := [.dieportReservedMsg 0 ⟨0, 0, 0, 0, 0, 0, 0, 0⟩ []] }) (fun t => decide (
      t.errs = [] ∧
      t.word R.rasCtrlErrCnt = 1)) = true := by decide +kernel

/-- R51. -/
theorem test_reset_assert :
    nexts (exec .erpRstNAssert (up.inc R.rasThmCnt 1)) (fun t => decide (
      t.chip.inReset = true ∧
      t.word R.rasThmCnt = 0)) = true := by decide +kernel

/-- R409. -/
theorem test_reset_release :
    ({ up with chip := { up.chip with inReset := true } } : State).chip.inReset = true ∧
    nexts (exec .erpRstNRelease ({ up with chip := { up.chip with inReset := true } } : State)) (fun t => decide (
      t.chip.now = 0 ∧
      t.get F.bootStageStage = 0 ∧
      t.word R.bootLock = 0)) = true := by decide +kernel

/-- A flash with octal reads of 64 MiB. -/
def flash : FlashAd := ⟨true, 0x4000000, true, true, 250, 133, [[0x81, 0, 0, 0, 0, 231]]⟩

/-- R409, R43 at the least density of R42. -/
theorem test_s1_entry :
    State.reset.powered = true ∧
    State.reset.errs = [] ∧
    State.reset.get F.bootStageStage = 0 ∧
    State.reset.chip.failed = false ∧
    State.reset.chip.fastOn = false ∧
    flash.sfdp = true ∧
    0x4000000 ≤ flash.density ∧
    nexts (exec (.s1Entry flash) State.reset) (fun t => decide (
      t.get F.bootStageStage = 1 ∧
      t.get F.bootSlotMode = 0 ∧ t.boot.clk = 200 ∧
      Out.flashReset ∈ t.outs ∧ Out.flashSfdp 0x5A 25 ∈ t.outs ∧ Out.flashRead 0 256 ∈ t.outs ∧ Out.flashConfig [0x81, 0, 0, 0, 0, 231] ∈ t.outs ∧
      t.boot.reading = true ∧
      t.chip.fastOn = true ∧
      t.chip.flashDriven = true ∧
      t.mbox = [MboxReq.mk opBootKeyReq 1 0 []] ∧
      t.get F.hiveZeroBusy = 1 ∧
      t.hive.mem = [] ∧ t.links = State.reset.links ∧ t.job = Job.reset)) = true := by decide +kernel

/-- R42, R423 code 1: one byte short of 64 MiB. -/
theorem test_s1_small_flash :
    State.reset.powered = true ∧
    ({ flash with density := 0x3FFFFFF } : FlashAd).sfdp = false ∨ ({ flash with density := 0x3FFFFFF } : FlashAd).density < 0x4000000 ∧
    nexts (exec (.s1Entry { flash with density := 0x3FFFFFF }) State.reset) (fun t => decide (
      t.get F.bootStatusCode = 1 ∧
      t.chip.fastOn = false ∧
      t.chip.failed = true ∧
      t.get F.bootStageStage = 0 ∧
      t.mbox = [])) = true := by decide +kernel

/-- A mailbox message: W0, the words and the check word (R477). -/
def mboxOf (op tag : Nat) (ws : List Word) : List Word := mboxMsg op tag ws

/-- S1, with slot A being read and the key request sent. -/
def inS1 : State :=
  { (up.put F.bootStageStage 1) with
    boot := { Boot.reset with reading := true }, mbox := [⟨opBootKeyReq, 7, 999999999999, []⟩] }

def keyRsp : List Word := mboxOf 0x81 7 ((List.range 12).map (fun i => BitVec.ofNat 32 i) ++ [3#32])

/-- R477: the key hash and the least security version arrive. -/
theorem test_boot_key_rsp :
    inS1.powered = true ∧
    inS1.errs = [] ∧
    mboxOk keyRsp = true ∧
    mboxOp keyRsp = 0x81 ∧
    inS1.get F.bootStageStage = 1 ∧
    inS1.mbox.any (fun r => r.op == opBootKeyReq && r.tag == mboxTagOf keyRsp) = true ∧
    inS1.boot.held = none ∧
    nexts (exec (.bootKeyRsp keyRsp) inS1) (fun t => decide (
      t.boot.keyHash = some (wordsBytes ((keyRsp.drop 1).take 12)) ∧
      t.boot.minSvn = 3 ∧
      t.mbox = [])) = true := by decide +kernel

def measAck : List Word := mboxOf 0x82 9 []

/-- An image of 512 B with the seven required timers, five REG records and END, signed by the key d = 12345 (made outside the
model, from FIPS 186). -/
def img : List Byte :=
  leBytes 32 0x77000001000000000D000000030000000000000200000000017AF0E3A0 ++
  leBytes 48 0x1B8BA8FD899A173BCB3CB0516904908DC35A2ACB1D2E976CCDA10088582F68B4CDCDD8D5B7A6952A314D0E355E996BE8 ++
  leBytes 48 0x486104F043226125161A8C3DC174CF43BDEC9B62A6DD1F46B2EF4AFFE1C1BEAABF0B693A3C6ECE41DDB0441F2C9F5B48 ++
  List.replicate 128 0#8 ++
  leBytes 48 0x4000000000000300000002040000040000000000000002000000010400000400000000000000010000000004000004 ++
  leBytes 48 0xC000000000000600000005040000040080000000000005000000040400000400800000000000040000000304000004 ++
  leBytes 48 0x10000000300001018010000040000000100000003000010180100000400C00000000000070000000604000004 ++
  leBytes 48 0x10000000300001018010000040000000100000003000010180100000400000001000000030000101801000004 ++
  leBytes 4 0x6000001 ++
  List.replicate 60 0#8 ++
  leBytes 48 0x611EAEE1DE118EA53D6F63ED6AA7B86BF8303C9D2F7743A9CF07F452A5CB7691B7C17E006FAB1099C0C660397518E80C ++
  leBytes 48 0xAD13326D8CF02535D031BB8445AE3F6D686C3599616CAB162A12E2B8FC4B5D7509DAE3537B19F6518338D0999CF93E51

def acked : State := { inS1 with boot := { Boot.reset with accepted := some img }, mbox := [⟨opMeasure, 9, 0, []⟩] }

def inS1Key : State := { inS1 with boot := { inS1.boot with keyHash := some (sha384 (slice img 32 96)), minSvn := 3 } }

/-- R477, R421. -/
theorem test_measure_ack :
    acked.powered = true ∧
    acked.errs = [] ∧
    mboxOk measAck = true ∧
    mboxOp measAck = 0x82 ∧
    acked.boot.accepted = some img ∧
    acked.mbox.any (fun r => r.op == opMeasure && r.tag == mboxTagOf measAck) = true ∧
    nexts (exec (.measureAck measAck) acked) (fun t => decide (
      t.get F.bootLockLock = 1 ∧
      t.get F.bootStagePrep = 1 ∧
      t.chip.flashDriven = false ∧
      t.boot.accepted = none ∧
      t.boot.prepAt = some acked.chip.now ∧
      t.keep.started = true ∧
      t.get (F.tmrCfgFeature 6) = 7 ∧
      t.get F.bootEvtPortPort = 1)) = true := by decide +kernel

/-- R415, R416: the signature over the measurement. -/
theorem test_slot_signature :
    signatureOk img = true := by decide +kernel

/-- R414 to R421. -/
theorem test_slot_sound :
    inS1Key.powered = true ∧
    inS1Key.errs = [] ∧
    inS1Key.get F.bootStageStage = 1 ∧
    inS1Key.boot.reading = true ∧
    inS1Key.boot.keyHash = some (sha384 (slice img 32 96)) ∧
    256 ≤ img.length ∧
    imgBytes img + 96 ≤ img.length ∧
    headerOk img = true ∧
    inS1Key.partOk img = true ∧
    inS1Key.boot.minSvn ≤ (wordAt img 4).toNat ∧
    (({ inS1Key with boot := { inS1Key.boot with reading := false, held := some img } } : State).emit (.flashRead (slotBase inS1Key.boot.slot) (imgBytes img + 96))).recordsCode img = (0, 0, 0) := by decide +kernel

/-- R416, R417, R477: slot A is accepted, and its measurement is sent. -/
theorem test_slot_accepted :
    inS1Key.errs = [] ∧
    nexts (exec (.imageSlotReadDone (some img)) inS1Key) (fun t => decide (
      t.boot.accepted = some img ∧
      t.boot.held = none ∧
      t.get F.bootSlotValid = 1 ∧
      t.get F.bootSlotSlot = 0 ∧
      t.get F.bootSlotSvn = fld (wordAt img 4) 15 0 ∧
      t.word R.bootImgVer = wordAt img 7 ∧
      (List.range 12).all (fun i => t.word (R.bootMeas i) == (bytesWords 12 (imgDigest img)).getD i 0) = true ∧
      t.mbox.getLast? = some (MboxReq.mk opMeasure 1 1000000000000 (bytesWords 12 (imgDigest img) ++ [0#32, wordAt img 4])) ∧
      (t.outs.getD 1 .flashReset) = Out.flashRead 0 608 ∧
      t.get F.bootStageStage = 1)) = true := by decide +kernel

/-- R423 codes 2 and 3: slot A leads to slot B. -/
theorem test_slot_bad :
    inS1.powered = true ∧
    inS1.errs = [] ∧
    inS1.get F.bootStageStage = 1 ∧
    inS1.boot.reading = true ∧
    inS1.boot.slot = 0 ∧
    headerOk (List.replicate 256 0#8) = false ∧
    nexts (exec (.imageSlotReadDone none) inS1) (fun t => decide (
      t.get F.bootStatusACode = 2 ∧
      t.boot.slot = 1 ∧
      t.outs = [Out.flashRead 0x2000000 256] ∧
      t.boot.reading = true ∧
      t.boot.held = none ∧
      t.get F.bootStageStage = 1)) = true ∧
    nexts (exec (.imageSlotReadDone (some (List.replicate 256 0#8))) inS1) (fun t => decide (
      t.get F.bootStatusACode = 3 ∧
      t.boot.slot = 1)) = true := by decide +kernel

/-- Preparation under way since 100 s. -/
def prep : State :=
  { ((up.put F.bootStageStage 1).put F.bootStagePrep 1) with boot := { Boot.reset with prepAt := some 999980000000 } }

/-- R423 code 12, 20 ms after the start to the nanosecond. -/
theorem test_keeper_timeout :
    prep.powered = true ∧
    prep.errs = [] ∧
    prep.boot.prepAt = some 999980000000 ∧
    prep.flag F.bootStagePrep = true ∧
    999980000000 + 20000000 ≤ prep.chip.now ∧
    prep.cycleOver = true ∧
    nexts (exec .keeperReadyTimeout prep) (fun t => decide (
      t.get F.bootStatusCode = 12 ∧ t.get F.bootStageStage = 0 ∧ t.get F.bootStagePrep = 0 ∧
      t.chip.fastOn = false ∧ t.chip.failed = true)) = true ∧
    nexts (exec (.preparationDone false) prep) (fun t => decide (
      t.get F.bootStatusCode = 11 ∧ t.get F.bootStageStage = 0 ∧
      t.chip.fastOn = false ∧ t.chip.failed = true)) = true := by decide +kernel

/-- R411, R27: S2 and the first credits. -/
theorem test_preparation_done :
    prep.flag F.hiveZeroBusy = false ∧
    prep.chip.drainLatched = false ∧
    prep.flag F.bootCtlFleet = false ∧
    3 < prep.nRegions ∧
    3 < prep.ports.length ∧
    (prep.port 3).owed.length = 3 ∧
    nexts (exec (.preparationDone true) prep) (fun t => decide (
      t.get F.bootStageStage = 2 ∧ t.get F.bootStagePrep = 0 ∧
      t.chip.ledOk = true ∧
      t.boot.prepAt = none ∧
      (t.port 3).owed = [256, 256, 128] ∧
      t.links = prep.links ∧ t.hive = prep.hive)) = true := by decide +kernel

/-- R426. -/
theorem test_fleet_write :
    up.powered = true ∧
    up.get F.bootStageStage = 2 ∧
    up.flag F.bootLockLock = true ∧
    bit 1#32 0 = true ∧
    nexts (exec (.bootFleetWrite 3 1#32) up) (fun t => decide (
      t.get F.bootStageStage = 3 ∧ t.flag F.bootCtlFleet = true ∧
      t.hive = up.hive ∧ t.job = up.job ∧ t.step = up.step)) = true := by decide +kernel

/-- R47. -/
theorem test_thermal :
    up.powered = true ∧
    up.regsWf = true ∧
    up.errs = [] ∧
    nexts (exec .thmAlert up) (fun t => decide (
      t.word R.rasThmCnt = 1 ∧
      bit (t.word R.jobEvt) evThermal = true ∧
      t.step.cnt.thm = 1 ∧
      (t.askWords ⟨0, 0, 0, 0, 0, 0, false⟩).getD 19 0 = 1 ∧ bit ((t.askWords ⟨0, 0, 0, 0, 0, 0, false⟩).getD 2 0) 6 = true ∧
      (t.askWords ⟨0, 0, true, 0, 0, 0, false⟩).getD 19 0 = 0 ∧ bit ((t.askWords ⟨0, 0, true, 0, 0, 0, false⟩).getD 2 0) 6 = true)) = true := by decide +kernel

/-- R34, at the last link. -/
theorem test_fec :
    up.hasLink 63 = true ∧
    up.powered = true ∧
    nexts (exec (.fecCorrPulse 63) up) (fun t => decide (
      t.word (R.linkCnt 63 lkFec) = 1 ∧
      t.links = up.links)) = true := by decide +kernel

/-- R46: 20 ns wide, 1 µs after the last. -/
theorem test_sync_edge :
    ({ up with chip := { up.chip with syncLast := some 999999999000 } } : State).syncOk 20 = true ∧
    (up.bar.open_ && up.bar.armed) = false ∧
    20 ≤ up.chip.now ∧
    up.chip.now < 2 ^ 64 ∧
    nexts (exec (.syncInEdge 20) ({ up with chip := { up.chip with syncLast := some 999999999000 } } : State)) (fun t => decide (
      t.pair R.tmrCapLo = 999999999980 ∧
      t.chip.syncLast = some 1000000000000)) = true := by decide +kernel

/-- R46: 19 ns wide, or 999 ns after the last. -/
theorem test_sync_edge_filtered :
    (19 : Nat) < 20 ∧
    up.chip.now < 999999999001 + 1000 ∧
    nexts (exec (.syncInEdge 19) up) (fun t => decide (
      t = up)) = true ∧
    nexts (exec (.syncInEdge 20) ({ up with chip := { up.chip with syncLast := some 999999999001 } } : State)) (fun t => decide (
      t.pair R.tmrCapLo = 0)) = true := by decide +kernel

def barArmed : State := { up with bar := { Barrier.reset with open_ := true, armed := true, step := 5 } }

/-- R366: an armed barrier fires. -/
theorem test_sync_fires :
    barArmed.powered = true ∧
    barArmed.syncOk 20 = true ∧
    barArmed.bar.open_ = true ∧
    barArmed.bar.armed = true ∧
    nexts (exec (.syncInEdge 20) barArmed) (fun t => decide (
      t.bar.open_ = false ∧
      t.word R.swarmCapsupCnt = 1 ∧
      t.word R.swarmBarStep = 5)) = true := by decide +kernel

/-- R255. -/
theorem test_drain :
    (up.put F.bootStageStage 1).powered = true ∧
    (up.put F.bootStageStage 1).get F.bootStageStage < 2 ∧
    2 ≤ up.get F.bootStageStage ∧
    (up.put F.bootStageMember 1).get F.rosterStatusDrain = 0 ∧
    (up.put F.bootStageMember 1).member = true ∧
    (up.put F.jobStatusState 2).jobState = jsRunning ∧
    (up.put F.jobStatusState 2).flag F.hiveZeroBusy = false ∧
    nexts (exec .svcDrain (up.put F.bootStageStage 1)) (fun t => decide (
      t.chip.drainLatched = true)) = true ∧
    nexts (exec .svcDrain (up.put F.bootStageMember 1)) (fun t => decide (
      t.get F.rosterStatusDrain = 1 ∧
      bit (t.word R.jobEvt) evDrain = true ∧ t.chip.blinkAt = up.chip.now ∧ t.chip.ledOk = up.chip.ledOk)) = true ∧
    nexts (exec .svcDrain (up.put F.jobStatusState 2)) (fun t => decide (
      t.get F.rosterStatusDrain = 3 ∧
      t.jobState = jsRunning)) = true := by decide +kernel

/-- R255, R45: 250 ms. -/
theorem test_drain_blink :
    1 ≤ (up.put F.rosterStatusDrain 3).get F.rosterStatusDrain ∧
    (up.put F.rosterStatusDrain 3).get F.rosterStatusDrain ≤ 3 ∧
    ({ (up.put F.rosterStatusDrain 3) with chip := { up.chip with blinkAt := 999750000000 } } : State).chip.blinkAt + 250000000 ≤ up.chip.now ∧
    (up.put F.rosterStatusDrain 3).cycleOver = true ∧
    nexts (exec .drainLedBlink ({ (up.put F.rosterStatusDrain 3) with chip := { up.chip with blinkAt := 999750000000 } } : State)) (fun t => decide (
      t.chip.ledOk = true ∧
      t.chip.blinkAt = 1000000000000)) = true := by decide +kernel

/-- R6: a half-word, an unaligned address, an offset that names no register. -/
theorem test_bad_access :
    up.powered = true ∧
    (2 : Nat) ≠ 4 ∧
    0x9002 % 4 ≠ 0 ∧
    up.closed 0xFFFFC = false ∧ regSpec 0xFFFFC = none ∧
    nexts (exec (.regBadAccess 3 .read 0xFFFFC 4) { up with rdata := 7#32 }) (fun t => decide (
      t.word R.rasBadaccCnt = 1 ∧
      t.rdata = 0#32)) = true ∧
    nexts (exec (.regBadAccess 0 .write 0x9002 4) { up with rdata := 7#32 }) (fun t => decide (
      t.word R.rasBadaccCnt = 1 ∧
      t.rdata = 7#32)) = true := by decide +kernel

/-- Log entry 96: unaligned, or of two bytes, in a range that does not answer. -/
theorem test_bad_access_closed :
    State.reset.closed R.jobEvtEn = true ∧
    State.reset.powered = true ∧
    nexts (exec (.regBadAccess 0 .write (R.jobEvtEn + 2) 4) State.reset) (fun t => decide (
      t = State.reset.inc R.rasBadaccCnt 1)) = true ∧
    nexts (exec (.regBadAccess 0 .read R.jobEvtEn 2) State.reset) (fun t => decide (
      t.word R.rasBadaccCnt = 1)) = true := by decide +kernel

def pairOff : Nat := R.stepRingBaseLo
def pairPending : State := { up with pairCap := [(pairOff, some 5#32)], pairHeld := [(pairOff, some 0x11000#32)] }

/-- R9 on STEP_RING_BASE. -/
theorem test_pair_access :
    isPairLo pairOff = true ∧
    up.closed pairOff = false ∧
    up.closed (pairOff + 4) = false ∧
    (regSpec pairOff).isSome = true ∧
    (regSpec (pairOff + 4)).isSome = true ∧
    SMap.get noneAt pairPending.pairCap pairOff = some 5#32 ∧
    SMap.get noneAt up.pairCap pairOff = none ∧
    SMap.get noneAt pairPending.pairHeld pairOff = some 0x11000#32 ∧
    SMap.get noneAt up.pairHeld pairOff = none ∧
    nexts (exec (.pairLoRead 0 pairOff) (up.setNum (pairOff + 4) 9)) (fun t => decide (
      t.rdata = 0#32 ∧ t.pairCap = [(pairOff, some 9#32)])) = true ∧
    nexts (exec (.pairHiRead 1 (pairOff + 4)) pairPending) (fun t => decide (
      t.rdata = 5#32 ∧ t.pairCap = [])) = true ∧
    nexts (exec (.pairHiRead 1 (pairOff + 4)) (up.setNum (pairOff + 4) 9)) (fun t => decide (
      t.rdata = 9#32)) = true ∧
    nexts (exec (.pairLoWrite 3 pairOff 0x22000#32) pairPending) (fun t => decide (
      t.pairHeld = [(pairOff, some 0x22000#32)] ∧ t.word pairOff = 0)) = true ∧
    nexts (exec (.pairHiWrite 3 (pairOff + 4) 1#32) pairPending) (fun t => decide (
      t.word pairOff = 0x11000#32 ∧ t.word (pairOff + 4) = 1#32 ∧ t.pairHeld = [])) = true ∧
    nexts (exec (.pairHiWrite 3 (pairOff + 4) 1#32) (up.setNum pairOff 0x33000)) (fun t => decide (
      t.word pairOff = 0x33000#32 ∧ t.word (pairOff + 4) = 1#32)) = true := by decide +kernel

/-- R7, R490: JOB_EVT_EN at once; STEP_DEADLINE_US takes effect at the boundary of a running job. -/
theorem test_host_write :
    plainReg R.jobEvtEn = true ∧
    up.closed R.jobEvtEn = false ∧
    (regSpec R.jobEvtEn).isSome = true ∧
    (up.put F.jobStatusState 2).jobState = jsRunning ∧
    ownTimeReg R.stepDeadlineUs = false ∧
    sieveCtlReg (R.sieveCtl 3) = true ∧
    up.closed (R.sieveCtl 3) = false ∧
    plainReg R.stepDeadlineUs = true ∧
    plainReg (R.linkTmo 63) = true ∧
    slotReg (R.linkTmo 63) = true ∧
    gapReg R.clkPwrCtl = true ∧
    up.closed (R.linkTmo 63) = false ∧
    (regSpec (R.linkTmo 63)).isSome = true ∧
    (regSpec R.stepDeadlineUs).isSome = true ∧
    nexts (exec (.regWrite 0 R.jobEvtEn 0xFFFFFFFF#32) up) (fun t => decide (
      t.word R.jobEvtEn = 0x7F#32)) = true ∧
    nexts (exec (.regWrite 0 R.stepDeadlineUs 5000#32) (up.put F.jobStatusState 2)) (fun t => decide (
      t.word R.stepDeadlineUs = 5000#32 ∧
      t.effWord R.stepDeadlineUs = up.effWord R.stepDeadlineUs)) = true ∧
    nexts (exec (.regWrite 0 (R.linkTmo 63) 0xFFFFFFFF#32) up) (fun t => decide (
      t.word (R.linkTmo 63) ≠ up.word (R.linkTmo 63) ∧ t.slotGet (F.linkTmoRetryUs 63) = up.slotGet (F.linkTmoRetryUs 63))) = true ∧
    nexts (exec (.regWrite 0 (R.sieveCtl 3) 0#32) up) (fun t => decide (
      t.word (R.sieveCtl 3) ≠ up.word (R.sieveCtl 3) ∧ t.effWord (R.sieveCtl 3) = up.effWord (R.sieveCtl 3))) = true := by decide +kernel

/-- R286: the route of member 5. -/
theorem test_route_write :
    up.hasLink 63 = true ∧
    up.chip.fastOn = true ∧
    up.flag F.bootLockLock = true ∧
    up.limbo = [] ∧
    nexts (exec (.regWrite 2 (R.linkRtData 63) 0x01020304#32) (up.put (F.linkRtIdxMember 0) 5)) (fun t => decide (
      t.routes = [(5, 0x01020304#32)])) = true := by decide +kernel

/-- R36: before the fast clocks. -/
theorem test_closed_write :
    State.reset.closed R.jobEvtEn = true ∧
    R.jobEvtEn % 4 = 0 ∧
    nexts (exec (.regWrite 0 R.jobEvtEn 1#32) State.reset) (fun t => decide (
      t = State.reset)) = true := by decide +kernel

/-- R40, R474. -/
theorem test_write_one_clears :
    up.powered = true ∧
    nexts (exec (.jobEvtClear 0 0x21#32) (up.setWord R.jobEvt 0x23#32)) (fun t => decide (
      t.word R.jobEvt = 2#32)) = true ∧
    nexts (exec (.rasErrFirstClear 0 0x800000#32) (up.setWord R.rasErrFirst 0x800012#32)) (fun t => decide (
      t.word R.rasErrFirst = 0x12#32)) = true := by decide +kernel

/-- R154, R216, R493, R226. -/
theorem test_command_registers :
    up.hasCluster 31 = true ∧
    up.flag (F.cluFlushActive 31) = false ∧
    fld 0x40000005#32 31 30 = 1 ∧
    2 ≤ fld 0x80000005#32 31 30 ∧
    (up.setWord (R.cluFlush 31) 0x60000005#32).flag (F.cluFlushActive 31) = true ∧
    (up.setWord (R.cluFlush 31) 0x60000005#32).get (F.cluFlushScope 31) = 1 ∧
    bit 1#32 0 = true ∧
    nexts (exec (.whiskScaleSet 0 0x1234#32) up) (fun t => decide (
      t.word R.whiskScaleSet = 0x11234#32)) = true ∧
    nexts (exec (.cluFlushStream 0 31 0x40000005#32) up) (fun t => decide (
      t.word (R.cluFlush 31) = 0x60000005#32)) = true ∧
    nexts (exec (.cluFlushAll 0 31 0x80000005#32) up) (fun t => decide (
      t.word (R.cluFlush 31) = 0xA0000005#32)) = true ∧
    nexts (exec (.cluFlushAll 0 31 0x80000000#32) (up.setWord (R.cluFlush 31) 0x60000005#32)) (fun t => decide (
      t.get (F.cluFlushScope 31) = 2)) = true ∧
    nexts (exec (.telSnapRequest 0 1#32) up) (fun t => decide (
      t.tel.request = true ∧ t.word R.telCtl = 1#32)) = true ∧
    nexts (exec (.cluEvtRdWrite 0 31 60#32) (up.put (F.cluEvtWrIndex 31) 3)) (fun t => decide (
      t.get (F.cluEvtRdRd 31) = 60 ∧ t.get (F.cluEvtWrCount 31) = 7 ∧ t.get (F.cluEvtWrIndex 31) = 3)) = true := by decide +kernel

/-- R493. -/
theorem test_snapshot :
    ({ up with tel := { Tel.reset with request := true, steps := 7, stepMax := 3 } } : State).tel.request = true ∧
    ({ up with tel := { Tel.reset with request := true, steps := 7, stepMax := 3 } } : State).cycleOver = true ∧
    nexts (exec .telSample ({ up with tel := { Tel.reset with request := true, steps := 7, stepMax := 3 } } : State)) (fun t => decide (
      t.word (R.telVal 0) = 7 ∧
      t.word R.telSnapSeq = 1 ∧
      t.word R.telSnapTLo = 0xD4A51000#32 ∧
      t.word R.telSnapTHi = 232#32 ∧
      t.tel.request = false ∧ t.tel.stepMax = 0 ∧ t.tel.steps = 7)) = true := by decide +kernel

/-- A timer of a feature, due to the nanosecond. -/
def dueTimer (feat unit : Nat) : State :=
  (((up.put (F.tmrCfgFeature 4) feat).put (F.tmrCfgUnit 4) unit).setTimer 4 ⟨true, 1000000000000 - 3 * unitNs unit, 3⟩)

/-- R451. -/
theorem test_keeper_tick :
    (dueTimer tmKeeper 2).due tmKeeper = true ∧
    up.hasKeeper 0 = true ∧
    up.keeperOn 0 = true ∧
    (dueTimer tmKeeper 2).cycleOver = true ∧
    ((dueTimer tmKeeper 2).put F.clkStateState 3).keeperOn 8 = true ∧
    ((dueTimer tmKeeper 2).put F.dbgKeeperHalt 0x1FF).due tmKeeper = true ∧
    (List.range 9).all (fun k => !(((dueTimer tmKeeper 2).put F.dbgKeeperHalt 0x1FF).keeperOn k)) = true ∧
    nexts (exec .keeperTick (dueTimer tmKeeper 2)) (fun t => decide (
      t.outs = [Out.keeperTick] ∧
      t.regs = (dueTimer tmKeeper 2).regs)) = true ∧
    nexts (exec .keeperTick ((dueTimer tmKeeper 2).put F.clkStateState 3)) (fun t => decide (
      t.get F.clkStateWaking = 1 ∧ t.get F.clkStateLastWake = 4)) = true ∧
    nexts (exec .keeperTick ((dueTimer tmKeeper 2).put F.dbgKeeperHalt 0x1FF)) (fun t => decide (
      t.outs = [] ∧ t.regs = ((dueTimer tmKeeper 2).put F.dbgKeeperHalt 0x1FF).regs)) = true := by decide +kernel

/-- R495. -/
theorem test_debug_start :
    up.get F.secLifecycleState = 0 ∧
    bit 0x80000000#32 31 = true ∧
    up.flag F.dbgStatusBusy = false ∧
    (up.put F.dbgStatusBusy 1).flag F.dbgStatusBusy = true ∧
    nexts (exec (.dbgRead 0 0x80000000#32) up) (fun t => decide (
      t.word R.dbgCtl = 0x80000000#32 ∧ t.get F.dbgStatusBusy = 1)) = true ∧
    nexts (exec (.dbgWrite 0 0xC0000000#32) up) (fun t => decide (
      t.word R.dbgCtl = 0xC0000000#32 ∧ t.get F.dbgStatusBusy = 1 ∧
      t.bus.dbgGo = some (0, some (List.replicate 32 0#8)))) = true ∧
    nexts (exec (.dbgWrite 0 0xC0000000#32) (up.put F.dbgStatusBusy 1)) (fun t => decide (
      t = up.put F.dbgStatusBusy 1)) = true ∧
    nexts (exec (.dbgKeeperHalt 0 0x1FF#32) up) (fun t => decide (
      t.get F.dbgKeeperHalt = 0x1FF)) = true := by decide +kernel

/-- A wake from E2 that the halt of the Head Keeper held. -/
def heldWake : State := { (up.put F.dbgKeeperHalt 0x100).put F.clkStateState 2 with power := { up.power with wakeHeld := some 1 } }

/-- R496, R50: the wake starts when the Head Keeper is released. -/
theorem test_keeper_released :
    bit 0xFF#32 8 = false ∧
    heldWake.power.wakeHeld = some 1 ∧
    wakesFrom 1 (heldWake.get F.clkStateState) = true ∧
    heldWake.flag F.clkStateWaking = false ∧
    heldWake.job.held = none ∧
    heldWake.get F.rosterStatusDrain ≠ 3 ∧
    heldWake.chip.fastOn = true ∧
    nexts (exec (.dbgKeeperHalt 0 0xFF#32) heldWake) (fun t => decide (
      t.get F.dbgKeeperHalt = 0xFF ∧ t.get F.clkStateWaking = 1 ∧ t.power.wakeHeld = none ∧ t.power.wakeT0 = 1000000000000)) = true := by decide +kernel

def dbgWr : State :=
  { up.put F.dbgStatusBusy 1 with bus := { up.bus with dbgGo := some (0x40, some (List.replicate 28 0#8 ++ [0xDD, 0xCC, 0xBB, 0xAA])) } }
def dbgRd : State :=
  ({ up.put F.dbgStatusBusy 1 with bus := { up.bus with dbgGo := some (0x40, none) } } : State).hput 0x40 [1, 2, 3, 4]

/-- R495. -/
theorem test_debug_done :
    dbgWr.clocked = true ∧
    dbgWr.flag F.dbgStatusBusy = true ∧
    dbgWr.hiveServes = true ∧
    dbgWr.bus.dbgGo = some (0x40, some (List.replicate 28 0#8 ++ [0xDD, 0xCC, 0xBB, 0xAA])) ∧
    dbgRd.flag F.dbgStatusBusy = true ∧
    dbgRd.hiveServes = true ∧
    dbgRd.bus.dbgGo = some (0x40, none) ∧
    dbgRd.ueIn 0x40 32 = false ∧
    (List.range 4).all (fun j => !dbgRd.inTileRec (0x40 + 8 * j)) = true ∧
    Memory.wf dbgRd = true ∧
    nexts (exec .dbgAccessDone dbgWr) (fun t => decide (
      t.hiveByte 0x5F = 0xAA#8 ∧ t.hiveByte 0x5C = 0xDD#8 ∧ t.hiveByte 0x60 = 0 ∧
      t.get F.dbgStatusBusy = 0 ∧ t.bus.dbgGo = none)) = true ∧
    nexts (exec .dbgAccessDone dbgRd) (fun t => decide (
      t.word (R.dbgData 0) = 0x04030201#32 ∧
      t.get F.dbgStatusBusy = 0 ∧ t.get F.dbgStatusErr = 0 ∧ t.hive.mem = dbgRd.hive.mem)) = true := by decide +kernel

/-- R480. -/
theorem test_debug_port :
    (up.put F.secLifecycleState 1).get F.secLifecycleState ≠ 0 ∧
    up.hiveServes = true ∧
    0x40 + 32 ≤ hiveSize ∧
    dbgRd.ueIn 0x40 32 = false ∧
    (up.put F.hiveStatusSelfref 1).hiveServes = false ∧
    up.hasKeeper 8 = true ∧
    524280 + 8 ≤ keeperSize ∧
    up.keepWf = true ∧
    8 < up.keep.mem.length ∧
    inDbg R.dbgCtl = true ∧
    nexts (exec (.debugPortRequest (.hiveRead 0x40)) (up.put F.secLifecycleState 1)) (fun t => decide (
      t.word R.secDbgDenyCnt = 1 ∧ t.outs = [])) = true ∧
    nexts (exec (.debugPortRequest (.hiveWrite 0x40 (List.replicate 32 9#8))) up) (fun t => decide (
      t.hiveByte 0x5F = 9#8 ∧ t.hiveByte 0x60 = 0)) = true ∧
    nexts (exec (.debugPortRequest (.hiveRead 0x40)) dbgRd) (fun t => decide (
      t.outs.length = 1 ∧ t.hive.mem = dbgRd.hive.mem)) = true ∧
    nexts (exec (.debugPortRequest (.hiveRead 0x40)) (up.put F.hiveStatusSelfref 1)) (fun t => decide (
      t.bus.dbgWait = [DbgReq.hiveRead 0x40] ∧ t.outs = [])) = true ∧
    nexts (exec (.debugPortRequest (.keeperWrite 8 524280 (List.replicate 8 7#8))) up) (fun t => decide (
      t.keeperByte 8 524287 = 7#8 ∧ t.keeperByte 8 524279 = 0 ∧ t.keeperMem 0 = [])) = true ∧
    nexts (exec (.debugPortRequest (.keeperRead 8 524280)) up) (fun t => decide (
      t.outs = [Out.debug (List.replicate 8 0#8)])) = true ∧
    nexts (exec (.debugPortRequest (.regRead R.dbgCtl)) up) (fun t => decide (
      t.outs = [Out.debug (List.replicate 4 0#8)])) = true ∧
    nexts (exec (.debugPortRequest (.regWrite R.dbgCtl 0x80000000#32)) up) (fun t => decide (
      t.get F.dbgStatusBusy = 1)) = true := by decide +kernel

/-- R480. -/
theorem test_lifecycle :
    ({ up with chip := { up.chip with lifeReported := true } } : State).chip.lifeReported = true ∧
    up.chip.lifeReported = false ∧
    (1#2 : BitVec 2) ≠ 0 ∧
    nexts (exec (.rotLifecycleReport 1#2) up) (fun t => decide (
      t.get F.secLifecycleState = 1 ∧ t.chip.lifeReported = true ∧ t.encOn 63 = true)) = true ∧
    nexts (exec (.rotLifecycleReport 2#2) ({ up with chip := { up.chip with lifeReported := true } } : State)) (fun t => decide (
      t.get F.secLifecycleState = 0)) = true := by decide +kernel

/-- R390. -/
theorem test_job_start :
    up.clocked = true ∧
    up.jobState = jsIdle ∧
    up.flag F.rasStatusFatal = false ∧
    up.flag F.hiveZeroBusy = false ∧
    nexts (exec (.jobStart 3) up) (fun t => decide (
      t.jobState = jsLoading ∧ t.get F.jobIdId = 1 ∧ t.get F.jobOwnerValid = 1 ∧ t.get F.jobOwnerPort = 3 ∧
      t.get (F.acctJobsStarted 3) = 1 ∧ t.job.loadKind = 1 ∧
      t.outs = [Out.dmaRead 3 0 64])) = true ∧
    nexts (exec (.jobResume 0) (up.put F.jobIdId 65535)) (fun t => decide (
      t.get F.jobIdId = 1 ∧ t.job.loadKind = 2 ∧ t.jobState = jsLoading)) = true := by decide +kernel

/-- R400. -/
theorem test_job_reload :
    (up.put F.jobStatusState 6).jobState = jsFaulted ∧
    nexts (exec (.jobReload 1) (up.put F.jobStatusState 6)) (fun t => decide (
      t.jobState = jsLoading ∧ t.job.loadKind = 3 ∧ t.get F.jobIdId = 0)) = true := by decide +kernel

/-- R401. -/
theorem test_job_abort :
    (up.put F.jobStatusState 2).jobState = jsRunning ∧
    (up.put F.jobStatusState 6).jobState = jsFaulted ∧
    nexts (exec (.jobAbort 1) (up.put F.jobStatusState 2)) (fun t => decide (
      t.jobState = jsZeroising ∧ t.get F.jobStatusEndReason = 3 ∧ t.job.after = AfterZero.endJob ∧
      (t.link 0).keys.tx = none)) = true ∧
    nexts (exec (.jobAbort 1) (up.put F.jobStatusState 6)) (fun t => decide (
      t.jobState = jsZeroising)) = true := by decide +kernel

/-- R390: a reserved code, RELOAD and ABORT in IDLE, START before S2. -/
theorem test_job_ignored :
    5 ≤ (5#32 : Word).toNat % 8 ∧
    (3#32 : Word).toNat % 8 = 3 ∧ up.jobState ≠ jsFaulted ∧
    (4#32 : Word).toNat % 8 = 4 ∧ up.jobState ≠ jsRunning ∧ up.jobState ≠ jsFaulted ∧
    (up.put F.bootStageStage 1).get F.bootStageStage < 2 ∧
    nexts (exec (.jobCmdIgnored 0 5#32) up) (fun t => decide (
      t.word R.jobCmdIgnCnt = 1 ∧ t.jobState = jsIdle)) = true ∧
    nexts (exec (.jobCmdIgnored 0 4#32) up) (fun t => decide (
      t.word R.jobCmdIgnCnt = 1 ∧ t.jobState = jsIdle)) = true ∧
    nexts (exec (.jobCmdIgnored 0 1#32) (up.put F.bootStageStage 1)) (fun t => decide (
      t.word R.jobCmdIgnCnt = 1 ∧ t.jobState = jsIdle)) = true := by decide +kernel

/-- A load under way after START by port 2, in a Hive with eight cells of each pool and 64 header slots. -/
def loading : State :=
  ((((((((((up.setNum (R.hivePoolCnt 0) 8).setNum (R.hivePoolCnt 1) 8).setNum (R.hivePoolCnt 2) 8).setNum (R.hivePoolCnt 3)
    8).setNum (R.hivePoolCnt 4) 8).put F.hiveSlotCntN 64).zeroLists).put F.jobStatusState 1).put F.jobOwnerValid 1).put
    F.jobOwnerPort 2).updJob (fun j => { j with loadKind := 1 })

/-- A gate record of one INT8 expert on 32 elements (R91). -/
def gateB : List Byte := sealWords [at_ 28 0xA ||| at_ 16 1 ||| at_ 0 32, 0, 0, 0, at_ 0 64, 0, 0]
/-- Its selection record: softmax, K = 1 (R105). -/
def selB : List Byte := sealWords [0, at_ 21 1 ||| at_ 13 255 ||| at_ 0 1, 0x3F800000#32, 0x3F800000#32, 0, 0, 0]
/-- Its Whisk record: INT8 out, FP32 back (R142). -/
def whiskB : List Byte := sealWords [at_ 28 0xA, 0, 0, 0, 0, 0, 0]

/-- Its descriptor: four segments of 64 B (R391). -/
def segE (kind : Nat) : List Byte := wordsBytes [0, 0, 0, 64, at_ 0 kind, 0, 0, 0]
def segs : List Byte := segE 1 ++ segE 2 ++ segE 3 ++ segE 6
def descHead : List Byte := wordsBytes ([1#32, 4#32] ++ List.replicate 13 0)
def desc : List Byte := descHead ++ wordBytes (crc32c (descHead ++ segs)) ++ segs
def loadData : LoadData :=
  ⟨some desc, [some (padTo 64 gateB), some (padTo 64 selB), some (padTo 64 whiskB), some (List.replicate 64 0)], none⟩

def gs : List Seg := (chunksOf 32 4 ((desc.drop 64).take (32 * 4))).map segOf
def asked0 : State := loading.dmaRead (loading.job.modelAt + 64) (32 * 4)
def copied : State := (asked0.copySegs loadData gs.zipIdx).1.probeRecords 1
def counted : State :=
  ((((List.range 1).foldl State.writeCsum copied).initScales 1).updRoster (fun r => { r with demand := [] })).clearGaps

/-- R393 code 1. -/
theorem test_load_unreadable :
    loading.hiveUp = true ∧
    loading.errs = [] ∧
    loading.jobState = jsLoading ∧
    ({ loadData with desc := none } : LoadData).desc = none ∧
    nexts (exec (.modelLoadDone { loadData with desc := none }) loading) (fun t => decide (
      t.jobState = jsZeroising ∧ t.get F.jobStatusEndReason = 5 ∧ t.word R.jobLoadErr = 0x10000000#32 ∧
      t.word R.rasDmaErrCnt = 1 ∧ t.job.after = AfterZero.endJob ∧ t.hive.mem = loading.hive.mem)) = true := by decide +kernel

/-- R392, R394: one layer, the least model. -/
theorem test_load_sound :
    loading.job.loadKind = 1 ∧
    loadData.desc = some desc ∧
    fld (wordAt desc 0) 8 0 = 1 ∧
    fld (wordAt desc 1) 10 0 = 4 ∧
    ((desc.drop 64).take (32 * 4)).length = 32 * 4 ∧
    wordAt desc 15 = crc32c (desc.take 60 ++ (desc.drop 64).take (32 * 4)) ∧
    asked0.badSeg gs = none ∧
    (asked0.copySegs loadData gs.zipIdx).2 = none ∧
    copied.recordsBad 1 = none ∧
    (counted.updJob (fun j => { j with model := some ⟨1, (counted.modelLoad 1).ub, (counted.modelLoad 1).uc, (counted.modelLoad 1).us⟩ })).fits (counted.modelLoad 1) 1 = true ∧
    nexts (exec (.modelLoadDone loadData) loading) (fun t => decide (
      t.jobState = jsRunning ∧ t.word R.jobLoadErr = 0 ∧
      t.word R.stepWaitSeq = loading.word R.stepFirstSeq ∧
      (t.job.model.map Model.layers) = some 1 ∧
      t.job.reads = [1000000000000] ∧ t.step.inProg = false)) = true ∧
    nexts (exec (.modelLoadDone loadData) ((loading.updJob (fun j => { j with loadKind := 3 })).setNum R.stepWaitSeq 77)) (fun t => decide (
      t.jobState = jsRunning ∧ t.word R.stepWaitSeq = 77#32)) = true := by decide +kernel

/-- A saved stream entry, of stream 5 (R167). -/
def savedStream : List Byte := sealWords (at_ 0 5 :: List.replicate 62 0)
/-- A save area with an empty scale table and one stream, of awaited step 9 (R397). -/
def saveB : List Byte :=
  padTo 0x100 (sealWords ([0, 9, 1, 1, 0, 0, 0, 0, 0, 0, 0, 0, 0, 0, 0x7d6a2a45] : List Word)) ++
    padTo 0xF00 (List.replicate 1024 0) ++ savedStream
def resuming : State := loading.updJob (fun j => { j with loadKind := 2 })

theorem crc_zeros_1 : (List.replicate 256 (0 : Byte)).foldl crcByte 0xFFFFFFFF#32 = 0x478d4e6f#32 := by decide +kernel
theorem crc_zeros_2 : (List.replicate 256 (0 : Byte)).foldl crcByte 0x478d4e6f#32 = 0xcf03123f#32 := by decide +kernel
theorem crc_zeros_3 : (List.replicate 256 (0 : Byte)).foldl crcByte 0xcf03123f#32 = 0xc5c4c2f9#32 := by decide +kernel
theorem crc_zeros_4 : (List.replicate 256 (0 : Byte)).foldl crcByte 0xc5c4c2f9#32 = 0x11512183#32 := by decide +kernel
theorem crc_stream : savedStream.foldl crcByte 0x11512183#32 = 0x8295d5ba#32 := by decide +kernel

/-- The check word of the save area's parts, computed in stretches of 256 B. -/
theorem save_crc : crc32c (List.replicate 1024 0 ++ savedStream) = 0x7d6a2a45#32 := by
  have h : List.replicate 1024 (0 : Byte) = List.replicate 256 0 ++ (List.replicate 256 0 ++ (List.replicate 256 0 ++
      List.replicate 256 0)) := by simp
  rw [crc32c, h]
  simp only [List.foldl_append, crc_zeros_1, crc_zeros_2, crc_zeros_3, crc_zeros_4, crc_stream]
  decide

/-- R399: the save area passes its checks. -/
theorem test_save_sound : saveOf 1 saveB = some ⟨9, 1, 0, List.replicate 1024 0, [savedStream], []⟩ := by
  have h1 : slice saveB 0x100 1024 = List.replicate 1024 0 := by decide +kernel
  have h2 : (List.range (fld (wordAt saveB 2) 14 0)).map (fun i => slice saveB (0x1000 + 256 * i) 256) = [savedStream] := by
    decide +kernel
  have h5 : (wordAt saveB 5).toNat = 0 := by decide +kernel
  have h6 : [savedStream].flatten ++ ([] : List Byte) = savedStream := by decide +kernel
  unfold saveOf
  simp only [h1, h2, h5, List.append_assoc, h6, save_crc, if_true]
  exact (if_pos (by decide +kernel)).trans (by decide +kernel)

/-- R399, R393: code 8 without the save area, or with a short one. -/
theorem test_load_resumed :
    resuming.job.loadKind = 2 ∧
    saveOf 1 (saveB.take 0x1000) = none ∧
    resuming.hiveUp = true ∧
    nexts (exec (.modelLoadDone loadData) resuming) (fun t => decide (
      t.jobState = jsZeroising ∧ t.word R.jobLoadErr = 0x80000000#32)) = true := by decide +kernel

/-- The gate, selection and Whisk records of the model, as bytes of the Hive. -/
def runningMem : List (Nat × Byte) :=
  [(0, 32#8), (2, 1#8), (3, 160#8), (16, 64#8), (28, 172#8), (29, 206#8), (30, 228#8), (31, 60#8), (8196, 1#8), (8197, 224#8),
   (8198, 63#8), (8202, 128#8), (8203, 63#8), (8206, 128#8), (8207, 63#8), (8220, 157#8), (8221, 62#8), (8222, 119#8), (8223,
   139#8), (16387, 160#8), (16412, 187#8), (16413, 248#8), (16414, 42#8), (16415, 126#8)]
/-- A job of port 2 in RUNNING with the model of one layer, awaiting its first Recipe. -/
def running : State :=
  ((withMem loading runningMem).put F.jobStatusState 2).updJob (fun j => { j with
    model := some ⟨1, [4, 0, 0, 0], 0, 3⟩, log2 := 1, ring := 0x10000, ask := 0x20000 })


/-- The bytes are those of the records. -/
theorem test_running_mem :
    ((((loading.hput 0 gateB).hput selBase selB).hput whiskBase whiskB).hive.mem == runningMem) = true := by decide +kernel

/-- Its awaited slot is being read. -/
def reading : State := running.updJob (fun j => { j with reads := [999999950000] })

/-- A Recipe of step 0, job 0: one bucket of 16 rows, no joins and leaves (R374). -/
def recipe (flags : Nat) (rows : Nat) : List Byte :=
  sealWords ([0, 0, BitVec.ofNat 32 flags, 0, 0, 0, 0, 1, at_ 8 rows] ++ List.replicate 54 0)

def withPoll : State := ((running.put (F.tmrCfgFeature 4) tmPoll).setTimer 4 ⟨true, 999999999990, 1⟩)

/-- R377. -/
theorem test_recipe_poll :
    running.clocked = true ∧
    running.errs = [] ∧
    withPoll.stepping = true ∧
    withPoll.step.inProg = false ∧
    withPoll.job.held = none ∧
    withPoll.keeperOn 8 = true ∧
    (withPoll.put F.dbgKeeperHalt 0x100).keeperOn 8 = false ∧
    (withPoll.put F.dbgKeeperHalt 0x100).due tmPoll = true ∧
    withPoll.flag F.rasStatusPartBusy = false ∧
    withPoll.due tmPoll = true ∧
    withPoll.cycleOver = true ∧
    nexts (exec .recipePoll withPoll) (fun t => decide (
      t.job.reads = [1000000000000] ∧
      t.outs = [Out.dmaRead 2 0x10000 256])) = true ∧
    nexts (exec .recipePoll (withPoll.updJob (fun j => { j with reads := [999999999000] }))) (fun t => decide (
      t.job.reads = [999999999000, 1000000000000])) = true ∧
    nexts (exec .recipePoll (withPoll.put F.dbgKeeperHalt 0x100)) (fun t => decide (
      t = withPoll.put F.dbgKeeperHalt 0x100)) = true := by decide +kernel

/-- R376: a read that failed, and a record that names another step. -/
theorem test_slot_absent :
    reading.clocked = true ∧
    reading.errs = [] ∧
    reading.job.reads ≠ [] ∧
    reading.job.held = none ∧
    reading.keeperOn 8 = true ∧
    reading.stepping = true ∧
    reading.step.inProg = false ∧
    reading.flag F.rasStatusPartBusy = false ∧
    (recipeOf (recipe 1 16)).seq ≠ (reading.setNum R.stepWaitSeq 1).nextSeq ∧
    nexts (exec (.recipeReadDone none none) reading) (fun t => decide (
      t.word R.rasDmaErrCnt = 1 ∧ t.job.reads = [])) = true ∧
    nexts (exec (.recipeReadDone (some (recipe 1 16)) none) (reading.setNum R.stepWaitSeq 1)) (fun t => decide (
      t.step.inProg = false ∧ t.job.reads = [] ∧ t.word R.stepRefuseCnt = 0)) = true := by decide +kernel

/-- R38: 50 µs. -/
theorem test_dma_timeout :
    reading.job.reads = [999999950000] ∧
    999999950000 + 50000 ≤ reading.chip.now ∧
    up.jobState = jsIdle ∧
    reading.cycleOver = true ∧
    loading.job.loadAt + 50000 ≤ loading.chip.now ∧
    (loading.updJob (fun j => { j with loadKind := 2 })).job.loadKind = 2 ∧
    nexts (exec (.dmaReadTimeout .slot) reading) (fun t => decide (
      t.word R.rasDmaErrCnt = 1 ∧ t.job.reads = [])) = true ∧
    nexts (exec (.dmaReadTimeout .list) reading) (fun t => decide (
      t.get F.stepRefuseCode = 1 ∧ t.word R.stepRefuseCnt = 1)) = true ∧
    nexts (exec (.dmaReadTimeout .model) loading) (fun t => decide (
      t.jobState = jsZeroising ∧ t.word R.jobLoadErr = 0x10000000#32)) = true ∧
    nexts (exec (.dmaReadTimeout (.segment 1023)) loading) (fun t => decide (
      t.word R.jobLoadErr = 0x300003FF#32)) = true ∧
    nexts (exec (.dmaReadTimeout .save) (loading.updJob (fun j => { j with loadKind := 2 }))) (fun t => decide (
      t.word R.jobLoadErr = 0x80000000#32)) = true ∧
    nexts (exec (.dmaReadTimeout .model) { loading with chip := { loading.chip with now := 49999 } }) (fun t => decide (
      t.jobState = jsLoading)) = true ∧
    nexts (exec (.dmaReadTimeout .other) up) (fun t => decide (
      t.word R.rasCtrlErrCnt = 1 ∧ t.get F.rasErrLastSrc = 2 ∧ t.jobState = jsIdle ∧ t.errs = [])) = true := by decide +kernel

/-- R376, R219: no bucket below ROWMULT. -/
theorem test_recipe_refused :
    (recipe 1 15).length = 256 ∧
    recOk 64 (recipe 1 15) = true ∧
    (recipeOf (recipe 1 15)).seq = reading.nextSeq ∧
    (recipeOf (recipe 1 15)).jobId = reading.get F.jobIdId ∧
    (recipeOf (recipe 1 15)).total = 0 ∧
    ((recipeOf (recipe 1 15)).endFlag && (recipeOf (recipe 1 15)).yield) = false ∧
    reading.bucketsOk (recipeOf (recipe 1 15)) = false ∧
    nexts (exec (.recipeReadDone (some (recipe 1 15)) none) reading) (fun t => decide (
      t.get F.stepRefuseCode = 3 ∧ t.word R.stepRefuseCnt = 1 ∧ t.step = reading.step ∧ t.hive = reading.hive ∧ t.job.reads = [])) = true := by decide +kernel

/-- The bucket of one ROWMULT. -/
def rows0 : Nat := running.rowMult

/-- R378: the first step of an island job. -/
theorem test_recipe_begins :
    reading.bucketsOk (recipeOf (recipe 1 rows0)) = true ∧
    recOk 64 (recipe 1 rows0) = true ∧
    (recipeOf (recipe 1 rows0)).endFlag = false ∧
    (recipeOf (recipe 1 rows0)).yield = false ∧
    reading.member = false ∧
    reading.upset = [] ∧
    reading.streamIds = [] ∧
    reading.step.torn = [] ∧
    reading.job.endSeq = none ∧
    reading.get F.rosterStatusDrain = 0 ∧
    reading.roster = Roster.reset ∧
    reading.swarm = Swarm.reset ∧
    reading.get F.bootStageStage = 2 ∧
    reading.awake = true ∧
    reading.get F.clkStateState < 2 ∧
    reading.flag F.whiskScaleSetPend = false ∧
    reading.ports = List.replicate 4 DiePort.reset ∧
    reading.links = List.replicate 64 Link.reset ∧
    reading.limbo = [] ∧
    nexts (exec (.recipeReadDone (some (recipe 1 rows0)) none) reading) (fun t => decide (
      t.step.inProg = true ∧ t.step.ordered = true ∧ t.step.buckets = [(rows0, 0)] ∧
      t.word R.stepLastSeq = 0 ∧ t.word R.stepWaitSeq = 1 ∧ t.get F.stepRefuseCode = 0 ∧
      t.job.anyAccepted = true ∧ t.effOld = [])) = true ∧
    nexts (exec (.recipeReadDone (some (recipe 1 rows0)) none) (reading.put F.clkStateState 2)) (fun t => decide (
      t.job.held = some (recipe 1 rows0, []) ∧ t.step.inProg = false ∧ t.get F.clkStateWaking = 1 ∧ t.get F.clkStateLastWake = 6)) = true := by decide +kernel

/-- R398. -/
theorem test_save_done :
    (running.put F.jobStatusState 4).jobState = jsSaving ∧
    nexts (exec .saveDone (running.put F.jobStatusState 4)) (fun t => decide (
      t.jobState = jsZeroising ∧ t.get F.jobStatusEndReason = 2 ∧ t.job.after = AfterZero.endJob ∧ t.get F.bootStageMember = 0 ∧
      Out.dmaWrite 2 0 (running.put F.jobStatusState 4).saveHeader ∈ t.outs)) = true := by decide +kernel

def withTimer (s : State) (feat unit : Nat) : State :=
  ((s.put (F.tmrCfgFeature 4) feat).put (F.tmrCfgUnit 4) unit).setTimer 4 ⟨true, 1000000000000 - 3 * unitNs unit, 3⟩

/-- R388. -/
theorem test_idle_timeout :
    (withTimer running tmIdle 3).jobState = jsRunning ∧
    (withTimer running tmIdle 3).step.inProg = false ∧
    (withTimer running tmIdle 3).flag F.rasStatusPartBusy = false ∧
    (withTimer running tmIdle 3).due tmIdle = true ∧
    (withTimer running tmIdle 3).cycleOver = true ∧
    nexts (exec .jobIdleTimeout (withTimer running tmIdle 3)) (fun t => decide (
      t.jobState = jsZeroising ∧ t.get F.jobStatusEndReason = 4 ∧ t.job.after = AfterZero.endJob)) = true := by decide +kernel

/-- A step of the job is in progress. -/
def stepping : State := running.updStep (fun x => { x with inProg := true, ordered := true, buckets := [(rows0, 0)] })

/-- R386, R387. -/
theorem test_deadline :
    (withTimer running tmDeadline 1).timerOf tmDeadline = some 4 ∧
    (withTimer running tmDeadline 1).timerHit 4 = true ∧
    (withTimer running tmDeadline 1).stepping = true ∧
    (withTimer running tmDeadline 1).restartDeadline.word R.stepDeadlineCnt = 1 ∧
    (withTimer stepping tmDeadline 1).step.inProg = true ∧
    (withTimer stepping tmDeadline 1).timerOf tmDeadline = some 4 ∧
    (withTimer stepping tmDeadline 1).timerHit 4 = true ∧
    (withTimer stepping tmDeadline 1).cycleOver = true ∧
    nexts (exec .stepDeadlineExpiry (withTimer running tmDeadline 1)) (fun t => decide (
      bit (t.word R.jobEvt) evDeadline = true ∧ t.word R.stepDeadlineCnt = 1 ∧ t.timer 4 = Timer.off ∧
      t.step = running.step ∧ t.hive = running.hive ∧ t.job = running.job)) = true ∧
    nexts (exec .stepDeadlineExpiry (withTimer stepping tmDeadline 1)) (fun t => decide (
      t.word R.stepDeadlineCnt = 1 ∧ t.word R.rasCtrlErrCnt = 1 ∧ t.get F.rasErrLastSrc = 0x11 ∧ t.flag F.rasStatusPartBusy = true)) = true := by decide +kernel

def zeroising : State := ((running.put F.hiveZeroBusy 1).put F.jobStatusState 5).updJob (fun j => { j with after := .endJob })

/-- R192, R396. -/
theorem test_zeroisation :
    zeroising.hiveUp = true ∧
    zeroising.errs = [] ∧
    zeroising.flag F.hiveZeroBusy = true ∧
    zeroising.get F.rosterStatusDrain ≠ 3 ∧
    zeroising.job.after = AfterZero.endJob ∧
    zeroising.bus.dbgWait = [] ∧
    nexts (exec .hiveZeroisationDone zeroising) (fun t => decide (
      t.hive.mem = [] ∧ t.hive.heads = [] ∧ t.hive.layout = zeroising.layoutNow ∧ t.hive.waiting = [] ∧
      t.word (R.hivePoolFree 4) = 8 ∧ t.get F.hiveZeroBusy = 0 ∧ t.get F.rasStatusPartBusy = 0 ∧ t.word R.hiveZeroCnt = 1 ∧
      t.jobState = jsIdle ∧ t.get F.jobOwnerValid = 0 ∧ t.job = Job.reset ∧ bit (t.word R.jobEvt) evDone = true ∧ t.get F.secZeroClean = 1 ∧ t.get (F.acctJobsEnded 2) = 1)) = true := by decide +kernel

/-- R52, R468: the first pass, and one after a fault. -/
theorem test_zeroisation_kinds :
    ({ running with job := { running.job with after := .nothing } } : State).job.after = AfterZero.nothing ∧
    nexts (exec .hiveZeroisationDone ((running.put F.hiveZeroBusy 1).updJob (fun j => { j with after := .toFaulted }))) (fun t => decide (
      t.jobState = jsFaulted)) = true ∧
    nexts (exec .hiveZeroisationDone (prep.put F.hiveZeroBusy 1)) (fun t => decide (
      t.jobState = jsIdle ∧ t.get F.hiveZeroBusy = 0)) = true := by decide +kernel

/-- The last pass of a drain, of a job that ends, and of one that has faulted. -/
def drainedEnd : State := zeroising.put F.rosterStatusDrain 3
def drainedFault : State := drainedEnd.updJob (fun j => { j with after := .toFaulted })

/-- R255, R442: safe to remove in E3; a faulted job is ended instead. -/
theorem test_zeroisation_drained :
    drainedEnd.hiveUp = true ∧
    drainedEnd.flag F.hiveZeroBusy = true ∧
    drainedEnd.get F.rosterStatusDrain = 3 ∧
    drainedEnd.job.after = AfterZero.endJob ∧
    drainedFault.job.after = AfterZero.toFaulted ∧
    drainedFault.hiveUp = true ∧
    drainedEnd.keeperOn 8 = true ∧
    (drainedEnd.put F.dbgKeeperHalt 0x100).keeperOn 8 = false ∧
    (drainedEnd.put F.dbgKeeperHalt 0x100).bus.dbgWait = [] ∧
    nexts (exec .hiveZeroisationDone (drainedEnd.put F.dbgKeeperHalt 0x100)) (fun t => decide (
      t.get F.rosterStatusDrain = 3 ∧ t.get F.hiveZeroBusy = 0 ∧ t.hive.mem = [])) = true ∧
    nexts (exec .hiveZeroisationDone drainedEnd) (fun t => decide (
      t.get F.rosterStatusDrain = 4 ∧ t.chip.ledOk = false ∧ t.chip.ledRemove = true ∧ t.jobState = jsIdle ∧
      t.get F.hiveZeroBusy = 0 ∧ t.get F.clkStateState = 3 ∧ t.hive.mem = [] ∧ t.get (F.acctJobsEnded 2) = 1)) = true ∧
    nexts (exec .hiveZeroisationDone drainedFault) (fun t => decide (
      t.jobState = jsZeroising ∧ t.get F.jobStatusEndReason = 6 ∧ t.get F.hiveZeroBusy = 1 ∧ t.job.after = AfterZero.endJob ∧ t.hive.mem = [])) = true := by decide +kernel

/-- A roster control message (R239). -/
def rmsg (op epoch dest : Nat) (arg0 : Word) (src : Nat) (arg1 : Word) (body : List Byte) : RxPkt :=
  let h : W8 := { w0 := at_ 28 5 ||| at_ 0 (body.length / 16), w1 := at_ 28 op, w2 := at_ 16 epoch ||| at_ 1 dest, w3 := arg0,
                  w4 := 0, w5 := at_ 23 src ||| at_ 2 1, w6 := arg1, w7 := 0 }
  { dst := 0, hops := 0, mg := false, nhdr := 1, bytes := h.sealed.bytes ++ body, whole := true, pab := false, cut := 0,
    taken := none, released := false, counted := false, places := 0, relay := none }

/-- A packet stands whole on a VC of link 63. -/
def got (s : State) (v : Nat) (p : RxPkt) : State := s.setRxq 63 v [p]

/-- Packages 0, 5 and 7 in a roster of epoch 1, where 0 and 7 serve the one expert. -/
def rv : RosterVal := ⟨1, 2, 0, [0, 5, 7], [[[0, 7]]]⟩
/-- The same with that roster. -/
def fleetMem : List (Nat × Byte) :=
  [(0, 32#8), (2, 1#8), (3, 160#8), (16, 64#8), (28, 172#8), (29, 206#8), (30, 228#8), (31, 60#8), (8196, 1#8), (8197, 224#8),
   (8198, 63#8), (8202, 128#8), (8203, 63#8), (8206, 128#8), (8207, 63#8), (8220, 157#8), (8221, 62#8), (8222, 119#8), (8223,
   139#8), (16387, 160#8), (16412, 187#8), (16413, 248#8), (16414, 42#8), (16415, 126#8), (16777216, 1#8), (16777220, 2#8),
   (16777228, 1#8), (16777232, 199#8), (16777233, 75#8), (16777234, 103#8), (16777235, 72#8), (16777236, 3#8), (16777248, 161#8),
   (16777340, 14#8), (16777341, 255#8), (16777342, 73#8), (16777343, 250#8), (16781312, 129#8), (16781376, 2#8), (16781436, 55#8),
   (16781437, 250#8), (16781438, 3#8), (16781439, 132#8)]
def fleet : State :=
  withMem (((running.put F.bootStageMember 1).put F.bootStageStage 3).put F.rosterEpochActive 1) fleetMem

/-- A revision to epoch 2 with the snapshot of step 9. -/
def rev2 : Rev := ⟨9, 2, some [], false, 0, 0, none, false, [], []⟩
def revising : State := fleet.updRoster (fun r => { r with rev := some rev2 })

/-- R232, R233: the roster reads back. -/
theorem test_fleet_reads :
    fleet.members = [0, 5, 7] ∧
    fleet.self = 0 ∧
    fleet.isLeader = true ∧
    fleet.atWork = true ∧
    fleet.member = true ∧
    fleet.errs = [] ∧
    fleet.hasLink 63 = true ∧
    (fleet.readRoster fleet.activeCopy) = (rv, 0) := by decide +kernel

def joining : State := running.updRoster (fun r => { r with asking := true })
def hasAck : State := running.updRoster (fun r => { r with ackStep := some 6, ackEpoch := 3 })
def part : RxPkt := rmsg 9 3 0 0 0 9728#32 (List.replicate 32 0x5A)
/-- A JOIN_ACK with a body, and a part of the roster whose header fails its check. -/
def badAck : RxPkt := rmsg 8 3 0 6#32 0 0 (List.replicate 16 0)
def badPart : RxPkt := { part with bytes := part.bytes.set 31 1 }

/-- R239, R425: a reserved bit; a package in no roster. -/
theorem test_roster_bad :
    (got fleet 0 (rmsg 6 0 0 20#32 5 5#32 (List.replicate 16 0))).rosterHead 63 opLeave = some (0, rmsg 6 0 0 20#32 5 5#32 (List.replicate 16 0)) ∧
    fleet.rosterMsgOk opLeave (rmsg 6 0 0 20#32 5 5#32 (List.replicate 16 0)) = false ∧
    running.member = false ∧
    running.atWork = true ∧
    (got running 0 (rmsg 5 0 0 20#32 5 7#32 [])).rosterHead 63 opLoss = some (0, rmsg 5 0 0 20#32 5 7#32 []) ∧
    running.rosterMsgOk opLoss (rmsg 5 0 0 20#32 5 7#32 []) = true ∧
    (got fleet 0 badAck).rosterHead 63 opJoinAck = some (0, badAck) ∧
    fleet.rosterMsgOk opJoinAck badAck = false ∧
    (got joining 0 badAck).rosterHead 63 opJoinAck = some (0, badAck) ∧
    joining.rosterMsgOk opJoinAck badAck = false ∧
    (got hasAck 0 badPart).rosterHead 63 opXfer = some (0, badPart) ∧
    hasAck.rosterMsgOk opXfer badPart = false ∧
    badAck.pab = false ∧ badPart.pab = false ∧
    nexts (exec (.leave 63) (got fleet 0 (rmsg 6 0 0 20#32 5 5#32 (List.replicate 16 0)))) (fun t => decide (
      t.word R.rosterRecErrCnt = 1 ∧ t.rxq 63 0 = [] ∧ t.roster = fleet.roster)) = true ∧
    nexts (exec (.joinAck 63) (got fleet 0 badAck)) (fun t => decide (
      t.word R.rosterRecErrCnt = 1 ∧ t.rxq 63 0 = [] ∧ t.roster = fleet.roster)) = true ∧
    nexts (exec (.joinAck 63) (got joining 0 badAck)) (fun t => decide (
      t.word R.rosterRecErrCnt = 1 ∧ t.rxq 63 0 = [] ∧ t.roster = joining.roster)) = true ∧
    nexts (exec (.rosterXfer 63) (got hasAck 0 badPart)) (fun t => decide (
      t.word R.rosterRecErrCnt = 1 ∧ t.rxq 63 0 = [] ∧ t.roster = hasAck.roster ∧ t.hive = hasAck.hive)) = true ∧
    nexts (exec (.loss 63) (got running 0 (rmsg 5 0 0 20#32 5 7#32 []))) (fun t => decide (
      t.word R.bootIslandDropCnt = 1 ∧ t.rxq 63 0 = [] ∧ t.roster = running.roster)) = true := by decide +kernel

/-- R240: before, and at, the end of step sw. -/
theorem test_rev_start :
    (got fleet 0 (rmsg 1 2 0 9#32 0 0 [])).rosterHead 63 opRevStart = some (0, rmsg 1 2 0 9#32 0 0 []) ∧
    fleet.rosterMsgOk opRevStart (rmsg 1 2 0 9#32 0 0 []) = true ∧
    fleet.roster.rev = none ∧
    W8.repoch ((rmsg 1 2 0 9#32 0 0 []).hdr 0) = next16 (fleet.get F.rosterEpochActive) ∧
    fleet.stepOver 9 = false ∧
    fleet.stepOver 0xFFFFFFFF = true ∧
    nexts (exec (.revStart 63) (got fleet 0 (rmsg 1 2 0 9#32 0 0 []))) (fun t => decide (
      t.get F.rosterStatusPhase = 2 ∧ t.swarm.keeper = [] ∧ t.roster.rev = some (⟨9, 2, none, false, 0, 0, none, false, [], []⟩ : Rev))) = true ∧
    nexts (exec (.revStart 63) (got (fleet.updRoster (fun r => { r with rev := some ⟨5, 2, some [], false, 0, 0, none, false, [], []⟩ })) 0 (rmsg 1 2 0 9#32 0 0 []))) (fun t => decide (
      t.roster.rev.map Rev.sw = some 9)) = true ∧
    nexts (exec (.revStart 63) (got fleet 0 (rmsg 1 2 0 0xFFFFFFFF#32 0 0 []))) (fun t => decide (
      t.get F.rosterStatusPhase = 3 ∧ t.roster.rev.map Rev.late = some true)) = true := by decide +kernel

/-- Log entry 108: a REV_START of a later epoch waits for the boundary that brings the package there. -/
theorem test_rev_start_early :
    (got fleet 0 (rmsg 1 3 0 9#32 0 0 [])).rosterHead 63 opRevStart = some (0, rmsg 1 3 0 9#32 0 0 []) ∧
    fleet.rosterMsgOk opRevStart (rmsg 1 3 0 9#32 0 0 []) = true ∧
    after 16 3 (next16 (fleet.get F.rosterEpochActive)) = true ∧
    nexts (exec (.revStart 63) (got fleet 0 (rmsg 1 3 0 9#32 0 0 []))) (fun t => decide (
      t.roster.startHeld = some (9, 3) ∧ t.roster.rev = none ∧ t.rxq 63 0 = [])) = true := by decide +kernel

/-- R240. -/
theorem test_rev_abort_vote :
    (got revising 0 (rmsg 4 2 0 1#32 0 0 [])).rosterHead 63 opRevAbort = some (0, rmsg 4 2 0 1#32 0 0 []) ∧
    revising.rosterMsgOk opRevAbort (rmsg 4 2 0 1#32 0 0 []) = true ∧
    (got revising 0 (rmsg 2 2 0 0 7 77#32 [])).rosterHead 63 opRevVote = some (0, rmsg 2 2 0 0 7 77#32 []) ∧
    revising.rosterMsgOk opRevVote (rmsg 2 2 0 0 7 77#32 []) = true ∧
    rev2.epoch = W8.repoch ((rmsg 2 2 0 0 7 77#32 []).hdr 0) ∧
    revising.isLeader = true ∧
    nexts (exec (.revAbort 63) (got revising 0 (rmsg 4 2 0 1#32 0 0 []))) (fun t => decide (
      t.roster.rev = none ∧ t.get F.rosterStatusPhase = 1 ∧ t.word R.rosterAbortCnt = 1)) = true ∧
    nexts (exec (.revVote 63) (got revising 0 (rmsg 2 2 0 0 7 77#32 []))) (fun t => decide (
      t.regs = revising.regs ∧
      t.roster = { revising.roster with rev := some { rev2 with votes := [(7, true, 77)] } })) = true := by decide +kernel

/-- And with the roster of epoch 2 in the other copy. -/
def votedMem : List (Nat × Byte) :=
  [(0, 32#8), (2, 1#8), (3, 160#8), (16, 64#8), (28, 172#8), (29, 206#8), (30, 228#8), (31, 60#8), (8196, 1#8), (8197, 224#8),
   (8198, 63#8), (8202, 128#8), (8203, 63#8), (8206, 128#8), (8207, 63#8), (8220, 157#8), (8221, 62#8), (8222, 119#8), (8223,
   139#8), (16387, 160#8), (16412, 187#8), (16413, 248#8), (16414, 42#8), (16415, 126#8), (16777216, 1#8), (16777220, 2#8),
   (16777228, 1#8), (16777232, 199#8), (16777233, 75#8), (16777234, 103#8), (16777235, 72#8), (16777236, 3#8), (16777248, 161#8),
   (16777340, 14#8), (16777341, 255#8), (16777342, 73#8), (16777343, 250#8), (16781312, 129#8), (16781376, 2#8), (16781436, 55#8),
   (16781437, 250#8), (16781438, 3#8), (16781439, 132#8), (83886080, 2#8), (83886084, 2#8), (83886092, 1#8), (83886096, 199#8),
   (83886097, 75#8), (83886098, 103#8), (83886099, 72#8), (83886100, 3#8), (83886112, 161#8), (83886204, 79#8), (83886205, 192#8),
   (83886206, 112#8), (83886207, 102#8), (83890176, 129#8), (83890240, 2#8), (83890300, 55#8), (83890301, 250#8), (83890302, 3#8),
   (83890303, 132#8)]
def voted : State :=
  withMem (revising.updRoster (fun r => { r with rev := some { rev2 with digest := some 77, voted := true } })) votedMem

/-- R244: the digest voted, and another. -/
theorem test_rev_commit :
    (got voted 0 (rmsg 3 2 0 30#32 0 77#32 [])).rosterHead 63 opRevCommit = some (0, rmsg 3 2 0 30#32 0 77#32 []) ∧
    voted.rosterMsgOk opRevCommit (rmsg 3 2 0 30#32 0 77#32 []) = true ∧
    after 16 2 (voted.get F.rosterEpochActive) = true ∧
    voted.ueIn (rosterBase (1 - voted.activeCopy)) 128 = false ∧
    hdrOk voted.modelLayers (voted.rosterHdr (1 - voted.activeCopy)) = true ∧
    nexts (exec (.revCommit 63) (got voted 0 (rmsg 3 2 0 30#32 0 77#32 []))) (fun t => decide (
      t.get F.rosterEpochStaged = 2 ∧ t.word R.rosterActStep = 30#32 ∧ t.get F.rosterStatusPhase = 5 ∧ t.word R.rosterDigest = 77#32 ∧
      t.roster.rev = none ∧ t.step.cnt.stagedFlag = true ∧ t.get F.rosterEpochActive = 1 ∧ t.activeCopy = voted.activeCopy)) = true ∧
    nexts (exec (.revCommit 63) (got voted 0 (rmsg 3 2 0 30#32 0 78#32 []))) (fun t => decide (
      t.word R.rosterLateCnt = 1 ∧ t.roster = voted.roster)) = true := by decide +kernel

/-- R250, R254: at the current step's successor, and late; R249. -/
theorem test_leave_join :
    (got fleet 0 (rmsg 6 0 0 2#32 5 5#32 [])).rosterHead 63 opLeave = some (0, rmsg 6 0 0 2#32 5 5#32 []) ∧
    fleet.rosterMsgOk opLeave (rmsg 6 0 0 2#32 5 5#32 []) = true ∧
    fleet.curSeq = 0xFFFFFFFF ∧
    (got fleet 0 (rmsg 7 0 0 0 9 9#32 [])).rosterHead 63 opJoinReq = some (0, rmsg 7 0 0 0 9 9#32 []) ∧
    fleet.rosterMsgOk opJoinReq (rmsg 7 0 0 0 9 9#32 []) = true ∧
    (got fleet 0 (rmsg 8 3 0 6#32 0 9#32 [])).rosterHead 63 opJoinAck = some (0, rmsg 8 3 0 6#32 0 9#32 []) ∧
    fleet.rosterMsgOk opJoinAck (rmsg 8 3 0 6#32 0 9#32 []) = true ∧
    fleet.members.contains 9 = false ∧
    nexts (exec (.leave 63) (got fleet 0 (rmsg 6 0 0 2#32 5 5#32 []))) (fun t => decide (
      t.roster = { fleet.roster with departs := [⟨5, 2, false⟩] } ∧ t.word R.rosterLateCnt = 0)) = true ∧
    nexts (exec (.leave 63) (got fleet 0 (rmsg 6 0 0 0xFFFFFFFF#32 5 5#32 []))) (fun t => decide (
      t.roster = { fleet.roster with departs := [⟨5, 0xFFFFFFFF, false⟩] } ∧ t.word R.rosterLateCnt = 1)) = true ∧
    nexts (exec (.joinReq 63) (got fleet 0 (rmsg 7 0 0 0 9 9#32 []))) (fun t => decide (
      t.roster = { fleet.roster with reqs := [9] })) = true ∧
    nexts (exec (.joinAck 63) (got fleet 0 (rmsg 8 3 0 6#32 0 9#32 []))) (fun t => decide (
      t.roster = { fleet.roster with joiners := [⟨9, 6, 3⟩] })) = true := by decide +kernel

/-- R429, R249. -/
theorem test_joiner :
    (got joining 0 (rmsg 8 3 0 6#32 0 0 [])).rosterHead 63 opJoinAck = some (0, rmsg 8 3 0 6#32 0 0 []) ∧
    joining.rosterMsgOk opJoinAck (rmsg 8 3 0 6#32 0 0 []) = true ∧
    joining.job.anyAccepted = false ∧
    joining.member = false ∧
    (got hasAck 0 part).rosterHead 63 opXfer = some (0, part) ∧
    hasAck.rosterMsgOk opXfer part = true ∧
    W8.rarg0 (part.hdr 0) = hasAck.roster.got ∧
    nexts (exec (.joinAck 63) (got joining 0 (rmsg 8 3 0 6#32 0 0 []))) (fun t => decide (
      t.word R.bootJoinSeq = 6 ∧ t.word R.stepWaitSeq = 6 ∧ t.roster.ackStep = some 6 ∧ t.roster.ackEpoch = 3 ∧
      t.roster.asking = false ∧ t.job.reads = joining.job.reads ∧ t.hive = joining.hive)) = true ∧
    nexts (exec (.rosterXfer 63) (got hasAck 0 part)) (fun t => decide (
      t.roster.got = 32 ∧ t.roster.total = 9728 ∧ t.regs = hasAck.regs ∧ t.hiveByte (rosterBase hasAck.activeCopy) = 0x5A ∧
      t.hiveByte (rosterBase hasAck.activeCopy + 31) = 0x5A ∧ t.hiveByte (rosterBase hasAck.activeCopy + 32) = 0)) = true := by decide +kernel

def silent : State := fleet.updRoster (fun r => { r with unreach := [(5, some 0), (7, some 0)] })

/-- R251, R250, R433. -/
theorem test_losses :
    (got fleet 0 (rmsg 5 0 0 4#32 5 7#32 [])).rosterHead 63 opLoss = some (0, rmsg 5 0 0 4#32 5 7#32 []) ∧
    fleet.rosterMsgOk opLoss (rmsg 5 0 0 4#32 5 7#32 []) = true ∧
    fleet.knownPkg 7 = true ∧
    silent.peers = [5, 7] ∧
    silent.unreachable 7 = true ∧
    silent.unreachable 5 = true ∧
    silent.cycleOver = true ∧
    silent.roster.isolated = false ∧
    fleet.swarm = Swarm.reset ∧
    fleet.limbo = [] ∧
    fleet.links = List.replicate 64 Link.reset ∧
    fleet.clus = List.replicate 32 Cluster.reset ∧
    fleet.step.layers = [] ∧
    fleet.bar.open_ = false ∧
    nexts (exec (.loss 63) (got fleet 0 (rmsg 5 0 0 4#32 5 7#32 []))) (fun t => decide (
      t.roster.lost = [7] ∧ t.roster.departs = [(⟨7, 4, true⟩ : Departure)] ∧ t.roster.seen = [(7, 4)] ∧ t.rxq 63 0 = [])) = true ∧
    nexts (exec (.loss 63) (got (fleet.updRoster (fun r => { r with seen := [(7, 4)] })) 0 (rmsg 5 0 0 4#32 5 7#32 []))) (fun t => decide (
      t.roster.lost = [] ∧ t.rxq 63 0 = [])) = true ∧
    nexts (exec (.lossDetect 7) silent) (fun t => decide (
      t.roster.lost = [7] ∧ t.roster.departs = [(⟨7, 1, true⟩ : Departure)] ∧ t.errs = [])) = true ∧
    nexts (exec .isolation silent) (fun t => decide (
      t.roster.lost = [5, 7] ∧ t.roster.isolated = true ∧ t.roster.departs = [])) = true := by decide +kernel

def revDue : State := (withTimer fleet tmRev 3).put F.rosterCtlRevEn 1
def reduced : State := { revising with swarm := { revising.swarm with keeper := [(0, [5])] } }

/-- R240, R427, R241. -/
theorem test_roster_timers :
    revDue.timerOf tmRev = some 4 ∧
    revDue.timerHit 4 = true ∧
    revDue.get F.rosterEpochStaged = 0 ∧
    revDue.eff F.rosterCtlRevEn = 1 ∧
    revDue.isLeader = true ∧
    (revDue.put F.rosterCtlRevEn 0).eff F.rosterCtlRevEn = 0 ∧
    revDue.awake = true ∧
    revDue.cycleOver = true ∧
    (revDue.put F.clkStateState 3).keeperOn 8 = true ∧
    (withTimer joining tmJoin 3).powered = true ∧
    revDue.roster.rev = none ∧
    (withTimer joining tmJoin 3).timerOf tmJoin = some 4 ∧
    (withTimer joining tmJoin 3).timerHit 4 = true ∧
    (withTimer joining tmJoin 3).awake = true ∧
    (withTimer joining tmJoin 3).cycleOver = true ∧
    nexts (exec .rosterRevExpiry revDue) (fun t => decide (
      t.roster = { revDue.roster with startDue := true } ∧ t.timer 4 = (⟨true, 1000000000000, revDue.revSeconds⟩ : Timer))) = true ∧
    nexts (exec .rosterRevExpiry (revDue.put F.rosterCtlRevEn 0)) (fun t => decide (
      t.roster = revDue.roster ∧ (t.timer 4).t0 = 1000000000000)) = true ∧
    nexts (exec .rosterRevExpiry (revDue.put F.clkStateState 3)) (fun t => decide (
      t.roster.startDue = true ∧ t.get F.clkStateWaking = 1)) = true ∧
    nexts (exec .joinRetry (withTimer joining tmJoin 3)) (fun t => decide (
      t.roster.askDue = true ∧ t.timer 4 = Timer.off)) = true := by decide +kernel

/-- R241. -/
theorem test_roster_compute :
    reduced.keepersOn = true ∧
    reduced.linkClocked = true ∧
    reduced.reducedDemand = some [[5]] ∧
    (reduced.readRoster reduced.activeCopy).2 = 0 ∧
    nexts (exec .rosterComputeDone reduced) (fun t => decide (
      t.roster.rev.map Rev.voted = some true ∧ t.get F.rosterStatusPhase = 4 ∧ t.activeCopy = reduced.activeCopy ∧
      t.roster.rev.bind Rev.digest = some ((reduced.readRoster reduced.activeCopy).1.revise (revLimits 0) 0 2 [] [[5]]).digest)) = true := by decide +kernel

/-- Nothing has moved since 0 s. -/
def still : State := { up with power := { up.power with idleAt := some 0, jobIdleAt := some 0 } }
def gapped : State := { still with power := { still.power with gap := some (0, 0), plan := 2 } }
def asleep (k : Nat) : State := up.put F.clkStateState k
def waking : State :=
  { (asleep 2).put F.clkStateWaking 1 with power := { up.power with wakeFrom := 2, wakeT0 := 1000000000000 - 25000 } }
def early : State := { gapped with power := { gapped.power with plan := 1, timed := some 0, wakeAt := some 5 } }

/-- R440, R441, R442. -/
theorem test_sleep :
    still.clocked = true ∧
    still.errs = [] ∧
    still.maySleep = true ∧
    1 ≤ still.slotGet F.clkPwrCtlDeepest ∧
    gapped.roster.rev = none ∧
    still.member = false ∧
    still.power.gap = none ∧
    still.e1Ready = true ∧
    gapped.e2Allowed = true ∧
    gapped.power.gap ≠ none ∧
    gapped.power.plan = 2 ∧
    gapped.e1Ready = true ∧
    gapped.flag F.hiveZeroBusy = false ∧
    still.slotGet F.clkPwrCtlDeepest = 3 ∧
    still.jobState = jsIdle ∧
    0 + 1000000 * max 1 (still.slotGet F.clkPwrCtlE3Idle) ≤ still.chip.now ∧
    gapped.keeperOn 8 = true ∧ still.keeperOn 8 = true ∧
    gapped.cycleOver = true ∧ still.cycleOver = true ∧
    (gapped.put F.dbgKeeperHalt 0x100).keeperOn 8 = false ∧
    nexts (exec .e1Entry still) (fun t => decide (
      t.get F.clkStateState = 1 ∧ t.word R.clkE1Cnt = 1 ∧ t = { still with regs := t.regs })) = true ∧
    nexts (exec .e2Entry (gapped.put F.dbgKeeperHalt 0x100)) (fun t => decide (
      t = gapped.put F.dbgKeeperHalt 0x100)) = true ∧
    nexts (exec .e3Entry (still.put F.dbgKeeperHalt 0x100)) (fun t => decide (
      t = still.put F.dbgKeeperHalt 0x100)) = true ∧
    nexts (exec .e2Entry gapped) (fun t => decide (
      t.get F.clkStateState = 2 ∧ t.get F.hiveStatusSelfref = 1 ∧ t.get F.clkStateVddMv = 650 ∧ t.word R.clkE2Cnt = 1 ∧ t.hive = gapped.hive)) = true ∧
    nexts (exec .e3Entry still) (fun t => decide (
      t.get F.clkStateState = 3 ∧ t.get F.hiveStatusSelfref = 1 ∧ t.get F.clkStateVddMv = 650 ∧ t.word R.clkE3Cnt = 1 ∧ t.linkState 0 = lsOff)) = true := by decide +kernel

/-- R447, R445: to the nanosecond; R449. -/
theorem test_wakes :
    (withTimer (asleep 1) tmWake 3).due tmWake = true ∧
    waking.flag F.clkStateWaking = true ∧
    waking.power.wakeT0 + wakeNs waking.power.wakeFrom ≤ waking.chip.now ∧
    waking.swarm = Swarm.reset ∧
    waking.bus.dbgWait = [] ∧
    waking.job.held = none ∧
    (withTimer (asleep 1) tmWake 3).cycleOver = true ∧
    early.maySleep = true ∧
    early.earlyDue = true ∧
    early.e1Ready = true ∧
    early.cycleOver = true ∧
    ((withTimer (asleep 2) tmWake 3).put F.dbgKeeperHalt 0x100).keeperOn 8 = false ∧
    ((withTimer (asleep 2) tmWake 3).put F.dbgKeeperHalt 0x100).power.wakeHeld = none ∧
    nexts (exec .wakeTimer ((withTimer (asleep 2) tmWake 3).put F.dbgKeeperHalt 0x100)) (fun t => decide (
      t.power.wakeHeld = some 1 ∧ t.get F.clkStateState = 2 ∧ t.get F.clkStateWaking = 0)) = true ∧
    nexts (exec .wakeTimer (withTimer (asleep 1) tmWake 3)) (fun t => decide (
      t.get F.clkStateWaking = 1 ∧ t.get F.clkStateLastWake = 1 ∧ t.get F.clkStateState = 1 ∧
      t.power.wakeT0 = 1000000000000 ∧ t.power.wakeFrom = 1)) = true ∧
    nexts (exec .wakeComplete waking) (fun t => decide (
      t.get F.clkStateState = 0 ∧ t.get F.clkStateWaking = 0 ∧ t.get F.hiveStatusSelfref = 0 ∧
      t.get F.clkStateVddMv = clampNat (waking.get F.clkVsetE0Mv) 650 850)) = true ∧
    nexts (exec .wakeComplete { waking with power := { waking.power with wakeT0 := waking.power.wakeT0 + 1 } }) (fun t => decide (
      t.get F.clkStateState = 2)) = true ∧
    nexts (exec .earlyWake early) (fun t => decide (
      t.word R.clkEarlyCnt = 1 ∧ t.power.timed = none ∧ t.power.wakeAt = none ∧ t.get F.clkStateState = 1)) = true := by decide +kernel

/-- Link 63 in a state, with the lanes of the state. -/
def lk (st : Nat) : State := (up.put (F.linkStatusState 63) st).put (F.linkStatusLanesUp 63) (if st = lsLanes then 7 else 15)
def trainOf (top cmid : Nat) (w1 w4 w6 : Word) : W8 := W8.sealed ⟨at_ 28 top ||| at_ 22 9 ||| at_ 0 cmid, w1, 0, 0, w4, 0, w6, 0⟩

/-- R278, R282: the last lane up, a lane down in HELLO and in ACTIVE. -/
theorem test_lanes :
    (lk lsLanes).hasLink 63 = true ∧
    (lk lsLanes).clocked = true ∧
    (lk lsLanes).linkState 63 = lsLanes ∧
    ((lk lsLanes).link 63).train.hold = none ∧
    (lk lsHello).linkState 63 = lsHello ∧
    (lk lsActive).linkState 63 = lsActive ∧
    nexts (exec (.laneChange 63 15#4) (lk lsLanes)) (fun t => decide (
      t.linkState 63 = lsHello ∧ t.get (F.linkStatusLanesUp 63) = 15 ∧ (t.link 63).train.ackSent = false)) = true ∧
    nexts (exec (.laneChange 63 14#4) ((lk lsHello).updTx 63 (fun x => { x with trainQ := [(lk lsHello).trainRec 63 1] }))) (fun t => decide (
      (t.link 63).tx.trainQ = [])) = true ∧
    nexts (exec (.laneChange 63 14#4) (lk lsHello)) (fun t => decide (
      t.linkState 63 = lsLanes ∧ t.get (F.linkStatusLanesUp 63) = 14 ∧ (t.link 63).train.lanesAt = 1000000000000)) = true ∧
    nexts (exec (.laneChange 63 7#4) (lk lsActive)) (fun t => decide (
      t.linkState 63 = lsRecover ∧ t.word (R.linkCnt 63 lkRecover) = 1 ∧ (t.link 63).train.resume = true ∧
      (t.link 63).tx = ((lk lsActive).link 63).tx ∧ (t.link 63).rx = ((lk lsActive).link 63).rx)) = true := by decide +kernel

/-- R278, R280, R281: to the nanosecond. -/
theorem test_train_timers :
    (lk lsLanes).linkClocked = true ∧
    0 + 1000000 * (lk lsLanes).slotGet (F.linkTmo2TrainMs 63) ≤ (lk lsLanes).chip.now ∧
    (lk lsHello).cycleOver = true ∧
    nexts (exec (.linkTrainTimeout 63) (lk lsLanes)) (fun t => decide (
      (t.link 63).train.idleReq = true ∧ (t.link 63).train.hold = some 1000000000000)) = true ∧
    nexts (exec (.linkIdleHoldEnd 63) ((lk lsLanes).updTrain 63 (fun x => { x with idleReq := true, hold := some 999999000000 }))) (fun t => decide (
      (t.link 63).train.idleReq = false ∧ (t.link 63).train.hold = none ∧ t.linkState 63 = lsLanes)) = true ∧
    nexts (exec (.linkHelloTimer 63) ((lk lsHello).updTrain 63 (fun x => { x with helloAt := 999999999000 }))) (fun t => decide (
      (t.link 63).tx.trainQ = [(lk lsHello).trainRec 63 1] ∧ (t.link 63).train.helloAt = 1000000000000)) = true ∧
    nexts (exec (.linkHelloTimer 63) ((lk lsHello).updTrain 63 (fun x => { x with helloAt := 999999999001 }))) (fun t => decide (
      (t.link 63).tx.trainQ = [])) = true ∧
    nexts (exec (.linkEchoTimer 63 0) ((lk lsEcho).updTrain 63 (fun x => { x with echoAt := 999999999000 }))) (fun t => decide (
      (t.link 63).tx.trainQ = [(lk lsEcho).trainRec 63 3] ∧ (t.link 63).train.echoSent = 1)) = true ∧
    nexts (exec (.linkEchoTimer 63 0) ((lk lsEcho).updTrain 63 (fun x => { x with echoAt := 0, echoSent := 16 }))) (fun t => decide (
      (t.link 63).tx.trainQ = [] ∧ (t.link 63).train.echoSent = 16)) = true := by decide +kernel

def shaken : State := (lk lsHello).updTrain 63 (fun x => { x with ackSent := true })
/-- The HELLO_ACK waits for its slot. -/
def acking : State := (lk lsHello).updTx 63 (fun t => { t with trainQ := [trainOf 2 0 0 0 0] })
def pinged : State := (lk lsEcho).updTrain 63 (fun x => { x with echoes := List.replicate 15 900 })

/-- R280, R268: the expected peer, the own id, a failed check; 64, 128, 160 and 160 places. -/
theorem test_hello :
    (lk lsHello).awake = true ∧
    (lk lsHello).jobLive = false ∧
    (trainOf 1 5 0 0 0).ok = true ∧
    (lk lsHello).peerOk 63 (trainOf 1 5 0 0 0) = true ∧
    (lk lsHello).peerOk 63 (trainOf 1 0 0 0 0) = false ∧
    (lk lsHello).flag (F.linkStatusMiswire 63) = false ∧
    (W8.ok ⟨0, 0, 0, 0, 0, 0, 0, 0⟩) = false ∧
    (shaken.link 63).train.ackSent = true ∧
    (shaken.link 63).train.resume = false ∧
    acking.linkClocked = true ∧
    fld (trainOf 2 0 0 0 0).w0 31 28 = 2 ∧
    (acking.link 63).train.ackGot = false ∧
    acking.lanesUp 63 = true ∧
    (acking.put (F.linkStatusLanesUp 63) 7).lanesUp 63 = false ∧
    nexts (exec (.hello 63 (trainOf 1 5 0 0 0)) (lk lsHello)) (fun t => decide (
      (t.link 63).tx.trainQ = [(lk lsHello).trainRec 63 2] ∧ (t.link 63).train.ackSent = false ∧ t.linkState 63 = lsHello ∧
      t.get (F.linkPeerPeerId 63) = 5 ∧ t.get (F.linkPeerPeerLink 63) = 9 ∧ t.flag (F.linkPeerValid 63) = true)) = true ∧
    nexts (exec (.hello 63 (trainOf 1 0 0 0 0)) (lk lsHello)) (fun t => decide (
      t.get (F.linkStatusMiswire 63) = 1 ∧ t.linkState 63 = lsHello)) = true ∧
    nexts (exec (.hello 63 (trainOf 1 0 0 0 0)) acking) (fun t => decide (
      t.get (F.linkStatusMiswire 63) = 1 ∧ (t.link 63).tx.trainQ = [])) = true ∧
    nexts (exec (.hello 63 ⟨0, 0, 0, 0, 0, 0, 0, 0⟩) (lk lsHello)) (fun t => decide (
      t.word (R.linkCnt 63 lkHdrErr) = 1 ∧ t.linkState 63 = lsHello)) = true ∧
    nexts (exec (.flitSlotGrant 63 0) acking) (fun t => decide (
      (t.link 63).train.ackSent = true ∧ (t.link 63).tx.trainQ = [] ∧ t.linkState 63 = lsHello)) = true ∧
    nexts (exec (.flitSlotGrant 63 0) (acking.put (F.linkStatusLanesUp 63) 7)) (fun t => decide (
      (t.link 63).tx.trainQ = [trainOf 2 0 0 0 0] ∧ t.outs = [] ∧ t.linkState 63 = lsHello)) = true ∧
    nexts (exec (.helloAck 63 (trainOf 2 5 0xA0A08040#32 0 0)) shaken) (fun t => decide (
      t.linkState 63 = lsEcho ∧ (t.link 63).tx.credits = [64, 128, 160, 160] ∧ (t.link 63).rx.x = 0 ∧ (t.link 63).train.echoes = [])) = true := by decide +kernel

/-- R281: 1,000 cycles less 100 at the peer; the sixteenth of the round trips. -/
theorem test_echo :
    ((lk lsEcho).link 63).train.echoes.length < 15 ∧
    (pinged.link 63).train.echoes.length = 15 ∧
    pinged.limbo = [] ∧
    nexts (exec (.echoReq 63 (trainOf 3 5 0 77#32 0) 4242) (lk lsEcho)) (fun t => decide (
      (t.link 63).tx.trainQ = [{ (lk lsEcho).trainRec 63 4 with w4 := 77#32, w6 := 4242#32 }] ∧ t.linkState 63 = lsEcho)) = true ∧
    nexts (exec (.echoRsp 63 (trainOf 4 5 0 1000#32 100#32) 2000) (lk lsEcho)) (fun t => decide (
      (t.link 63).train.echoes = [900] ∧ t.linkState 63 = lsEcho)) = true ∧
    nexts (exec (.echoRsp 63 (trainOf 4 5 0 1000#32 100#32) 1500) pinged) (fun t => decide (
      t.linkState 63 = lsActive ∧ t.get (F.linkRttRtt 63) = 400)) = true := by decide +kernel

/-- A link header: kind, VC, SOP, EOP, SEQ and ACK, destination, length. -/
def lhdr (kind vc seq ack : Nat) (sop eop : Bool) (dst len : Nat) (l2 : Word) : W4 :=
  let h : W4 := ⟨at_ 28 kind ||| at_ 26 vc ||| at_ 25 (b2n sop) ||| at_ 24 (b2n eop) ||| at_ 12 seq ||| at_ 0 ack, 0x04030201#32,
    at_ 20 dst ||| l2 ||| at_ 8 1 ||| at_ 0 len, 0⟩
  { h with l3 := W4.crc h }

/-- Link 63 is ACTIVE and unencrypted, expects flit 5 and has one flit out. -/
def live : State :=
  ((((lk lsActive).put F.bootStageMember 1).put (F.linkCtlEnc 63) 0).updTx 63 (fun t => { t with
    credits := [9, 9, 9, 9], seq := 8 })).updRx 63 (fun r => { r with x := 5 })
def sent7 : State := live.updTx 63 (fun t => { t with retry := [⟨7, lhdr 1 0 7 0 true true 5 32 0, [], false⟩], oldestAt := 0 })

/-- A HELLO_ACK of link 9 of package 5, which has accepted up to flit 5. -/
def resumeAck (resume : Bool) : W8 := W8.sealed ⟨at_ 28 2 ||| at_ 22 9 ||| at_ 20 (b2n resume) ||| at_ 0 5, 0, 0, 0, 0, 6#32, 0, 0⟩
def outFlit (q : Nat) : RetryFlit := ⟨q, lhdr 1 0 q 0 true true 5 32 0, [1, 2], true⟩
/-- Link 63 in the HELLO of its recovery, with three flits out. -/
def recov : State := ((live.put (F.linkStatusState 63) lsRecover).updTrain 63 (fun x => { x with
  sub := lsHello, resume := true, ackSent := true })).updTx 63 (fun t => { t with retry := [outFlit 5, outFlit 6, outFlit 7] })

/-- R282: both sides resume, from T5 + 1 on; one side alone does. -/
theorem test_resume :
    recov.phase 63 = lsHello ∧
    recov.jobLive = false ∧
    recov.limbo = [] ∧
    (resumeAck true).ok = true ∧
    recov.peerOk 63 (resumeAck true) = true ∧
    bit (resumeAck true).w0 20 = true ∧ bit (resumeAck false).w0 20 = false ∧
    recov.flag (F.linkStatusMiswire 63) = false ∧
    (recov.link 63).tx.q = [[], [], [], []] ∧ recov.errs = [] ∧ recov.lanesUp 63 = true ∧
    nexts (exec (.helloAck 63 (resumeAck true)) recov) (fun t => decide (
      t.linkState 63 = lsActive ∧ (t.link 63).tx.retry = [outFlit 6, outFlit 7] ∧ (t.link 63).tx.resend = 1 ∧
      (t.link 63).tx.seq = 8 ∧ (t.link 63).rx.x = 5 ∧ (t.link 63).tx.credits = [9, 9, 9, 9] ∧ (t.link 63).train.resume = false)) = true ∧
    nexts (exec (.helloAck 63 (resumeAck false)) recov) (fun t => decide (
      t.linkState 63 = lsHello ∧ t.word (R.linkCnt 63 lkDead) = 1 ∧ (t.link 63).tx.retry = [] ∧ (t.link 63).tx.seq = 0 ∧ (t.link 63).rx.x = 0)) = true := by decide +kernel

def goingBack : State := recov.put (F.linkStatusState 63) lsActive |>.updTx 63 (fun t => { t with resend := 2 })
def ctrlWaits : State := live.updTx 63 (fun t => { t with ctrlDue := true })

/-- R273, R361: the second newest of three; R263, R272: a slot no VC asks for. -/
theorem test_slot_resend :
    (goingBack.link 63).tx.retry[3 - 2]? = some (outFlit 6) ∧
    goingBack.upset = [] ∧ goingBack.errs = [] ∧ goingBack.bar.open_ = false ∧
    (ctrlWaits.settleSlot 63).pickVc 63 = none ∧ (live.settleSlot 63).pickVc 63 = none ∧
    (live.link 63).tx.ctrlDue = false ∧ (live.link 63).tx.nakDue = false ∧ (live.link 63).tx.aliveDue = false ∧ (live.link 63).tx.trainQ = [] ∧
    nexts (exec (.flitSlotGrant 63 0) goingBack) (fun t => decide (
      t.outs.map (fun (o : Out) => match o with | Out.flit n h b => (n, fld h.l0 31 28, fld h.l0 23 12, fld h.l0 11 0, b) | _ => (0, 0, 0, 0, [])) = [(63, 1, 6, 4, [1, 2])] ∧
      (t.link 63).tx.resend = 1 ∧ t.word R.swarmBarRetryCnt = 1 ∧ (t.link 63).tx.seq = 8)) = true ∧
    nexts (exec (.flitSlotGrant 63 0) ctrlWaits) (fun t => decide (
      t.outs.map (fun (o : Out) => match o with | Out.flit n h b => (n, fld h.l0 31 28, fld h.l0 11 0, fld h.l2 14 12, b.length) | _ => (0, 0, 0, 0, 0)) = [(63, 2, 4, 0, 240)] ∧
      (t.link 63).tx.ctrlDue = false ∧ (t.link 63).tx.lastCtrl = 1000000000000)) = true ∧
    nexts (exec (.flitSlotGrant 63 0) live) (fun t => decide (
      t.outs = [])) = true := by decide +kernel

/-- R272, R273, R299: a duplicate, the expected flit, a bad one, and a CTRL flit that covers 7. -/
theorem test_flits :
    W4.ok (lhdr 1 2 4 0 true false 0 240 0) = true ∧
    fld (lhdr 1 2 4 0 true false 0 240 0).l0 31 28 = 1 ∧
    before 12 4 (live.link 63).rx.x = true ∧
    live.encOn 63 = false ∧
    live.cmid = 0 ∧
    live.rxq 63 2 = [] ∧
    live.firstFlitOk 2 1 false ([1, 2] ++ List.replicate 238 0) = true ∧
    W4.ok (lhdr 2 0 0 7 false false 0 0 0x3000#32) = true ∧
    fld (lhdr 2 0 0 7 false false 0 0 0x3000#32).l0 31 28 = 2 ∧
    bit (lhdr 2 0 0 7 false false 0 0 0x3000#32).l2 15 = false ∧
    sent7.limbo = [] ∧
    W4.ok ⟨0, 0, 0, 0⟩ = false ∧
    (sent7.put (F.linkStatusState 63) lsRecover).awake = true ∧
    nexts (exec (.ctrlFlitRx 63 (lhdr 2 0 0 7 false false 0 0 0x3000#32)) (sent7.put (F.linkStatusState 63) lsRecover)) (fun t => decide (
      (t.link 63).tx.retry = [] ∧ t.linkState 63 = lsRecover)) = true ∧
    nexts (exec (.dataFlitRx 63 (lhdr 1 2 4 0 true false 0 240 0) []) live) (fun t => decide (
      t.word (R.linkCnt 63 lkDup) = 1 ∧ (t.link 63).rx.x = 5 ∧ (t.link 63).rx.q = (live.link 63).rx.q)) = true ∧
    nexts (exec (.dataFlitRx 63 (lhdr 1 2 5 0 true false 0 240 0) [1, 2]) live) (fun t => decide (
      (t.link 63).rx.x = 6 ∧ t.word (R.linkCnt 63 lkRx) = 1 ∧ t.tel.flitRx = 1 ∧
      (t.rxq 63 2).map RxPkt.bytes = [[1, 2] ++ List.replicate 238 0] ∧ (t.rxq 63 2).map RxPkt.places = [1])) = true ∧
    nexts (exec (.badFlitRx 63) live) (fun t => decide (
      t.word (R.linkCnt 63 lkHdrErr) = 1 ∧ (t.link 63).tx.nakDue = true ∧ (t.link 63).rx = { (live.link 63).rx with nakAt := (t.link 63).rx.nakAt })) = true ∧
    nexts (exec (.badFlitRx 63) (live.put (F.linkStatusQuietPeer 63) 1)) (fun t => decide (
      t.get (F.linkStatusQuietPeer 63) = 0 ∧ (t.link 63).rx.lastRx = 1000000000000)) = true ∧
    nexts (exec (.ctrlFlitRx 63 (lhdr 2 0 0 7 false false 0 0 0x3000#32)) sent7) (fun t => decide (
      (t.link 63).tx.retry = [] ∧ t.get (F.linkStatusQuietPeer 63) = 1 ∧ (t.link 63).keys.peerKv = true ∧ (t.link 63).tx.lastCr = [1, 2, 3, 4])) = true := by decide +kernel

def linkKey : Key := ⟨0, 4, 1, List.replicate 32 0xA5⟩
/-- Encrypted, from link 9 of package 5; three flits of generation 1 have come. -/
def liveEnc : State :=
  (((live.put (F.linkCtlEnc 63) 1).put (F.linkPeerPeerId 63) 5).put (F.linkPeerPeerLink 63) 9).updKeys 63 (fun k =>
    { k with rx := [linkKey], rxXseq := 3, rxKg := some 1 })
/-- Link 62 leads to package 5. -/
def liveVia : State :=
  ((((live.put (F.linkStatusState 62) lsActive).put (F.linkCtlEnc 62) 0).put (F.linkPeerValid 62) 1).put (F.linkPeerPeerId 62) 5)
/-- AES-256 of the counter blocks of job 0, epoch 4, package 5, link 9, XSEQ 3, and of package 0, link 63, XSEQ 7 (FIPS 197). -/
def ks3 : List Byte := [100, 81, 34, 220, 95, 114, 144, 213, 240, 77, 12, 206, 229, 131, 223, 218]
def ks7 : List Byte := [121, 41, 90, 95, 168, 144, 97, 70, 33, 202, 40, 63, 165, 236, 94, 71]

/-- R292, R293, R294: zeros under the keystream. -/
theorem test_encrypted_flit :
    liveEnc.encOn 63 = true ∧
    (liveEnc.link 63).keys.rx.find? (fun k => k.kg == fld (lhdr 1 2 5 0 true false 0 16 0x4000#32).l2 14 14) = some linkKey ∧
    W4.ok (lhdr 1 2 5 0 true false 0 16 0x4000#32) = true ∧
    liveEnc.firstFlitOk 2 1 false (List.replicate 16 0) = true ∧
    nexts (exec (.dataFlitRx 63 (lhdr 1 2 5 0 true false 0 16 0x4000#32) ks3) liveEnc) (fun t => decide (
      (t.rxq 63 2).map RxPkt.bytes = [List.replicate 16 0] ∧ (t.link 63).keys.rxXseq = 4 ∧ (t.link 63).keys.rxKg = some 1)) = true := by decide +kernel

/-- R288, R289: toward package 5 by link 62, and without a route. -/
theorem test_relayed_flit :
    fld (lhdr 1 2 5 0 true false 5 240 0).l2 31 20 ≠ liveVia.cmid ∧
    fld (lhdr 1 2 5 0 true false 5 240 0).l2 31 20 / 512 = liveVia.dom ∧
    liveVia.relayRoute 5 0 none = some 62 ∧
    ((liveVia.link 62).tx.q.getD 2 []).length = 0 ∧
    liveVia.encOn 63 = false ∧
    live.relayRoute 5 0 none = none ∧
    nexts (exec (.dataFlitRx 63 (lhdr 1 2 5 0 true false 5 240 0) [1, 2]) liveVia) (fun t => decide (
      ((t.link 62).tx.q.getD 2 []).map (fun (p : TxPkt) => (p.relay, p.dst, p.hops, p.held, p.bytes)) = [(some 63, 5, 1, 1, [1, 2] ++ List.replicate 238 0)] ∧
      t.word (R.linkCnt 62 lkRelay) = 1 ∧ (t.link 63).rx.x = 6)) = true ∧
    nexts (exec (.dataFlitRx 63 (lhdr 1 2 5 0 true false 5 240 0) [1, 2]) live) (fun t => decide (
      t.word (R.linkCnt 63 lkRelayDrop) = 1 ∧ (t.link 63).rx.freed = [0, 0, 1, 0] ∧ (t.link 63).tx.q = [[], [], [], []])) = true := by decide +kernel

def ready : State := live.updTx 63 (fun t => { t with q := [[], [], [TxPkt.own 2 5 1 (List.replicate 32 7) none []], []] })

/-- R296: the one packet that waits. -/
theorem test_slot :
    ready.linkClocked = true ∧
    (ready.link 63).tx.resend = 0 ∧
    (ready.settleSlot 63).pickVc 63 = some (2, false) ∧
    (ready.link 63).tx.current 2 = some 0 ∧
    nexts (exec (.flitSlotGrant 63 0) ready) (fun t => decide (
      (t.link 63).tx.seq = 9 ∧ (t.link 63).tx.retry.length = 1 ∧ t.word (R.linkCnt 63 lkTx) = 1 ∧ t.tel.flitTx = 1 ∧
      (t.link 63).tx.credits = [9, 9, 8, 9] ∧ (t.link 63).tx.q = [[], [], [], []])) = true := by decide +kernel

/-- Encrypted, with a ready key; seven flits sent. -/
def readyEnc : State :=
  (((live.put (F.linkCtlEnc 63) 1).put (F.linkKeyTxReady 63) 1).updKeys 63 (fun k => { k with tx := some linkKey, xseq := 7 })).updTx 63
    (fun t => { t with q := [[], [], [TxPkt.own 2 5 1 (List.replicate 16 0) none []], []] })
/-- A flit relayed from link 62 waits. -/
def relaying : State := live.updTx 63 (fun t => { t with
  q := [[], [], [{ TxPkt.own 2 5 1 (List.replicate 240 7) none [] with relay := some 62, whole := false, held := 1, hops := 1 }], []] })

/-- R292, R293; R269, R288. -/
theorem test_slot_encrypted :
    (readyEnc.settleSlot 63).pickVc 63 = some (2, false) ∧
    (readyEnc.link 63).tx.current 2 = some 0 ∧
    (readyEnc.link 63).keys.tx = some linkKey ∧
    (relaying.settleSlot 63).pickVc 63 = some (2, false) ∧
    (relaying.link 63).tx.current 2 = some 0 ∧
    nexts (exec (.flitSlotGrant 63 0) readyEnc) (fun t => decide (
      t.outs.map (fun (o : Out) => match o with | Out.flit n h b => (n, fld h.l2 14 14, b.take 16) | _ => (0, 0, [])) = [(63, 1, ks7)] ∧
      (t.link 63).keys.xseq = 8 ∧ (t.link 63).tx.credits = [9, 9, 8, 9])) = true ∧
    nexts (exec (.flitSlotGrant 63 0) relaying) (fun t => decide (
      (t.link 62).rx.freed = [0, 0, 1, 0] ∧ (t.link 63).tx.seq = 9)) = true := by decide +kernel

/-- R273, R275, R270. -/
theorem test_link_timers :
    (sent7.link 63).tx.retry ≠ [] ∧
    (sent7.link 63).tx.oldestAt + 1000 * max 1 (sent7.slotGet (F.linkTmoRetryUs 63)) ≤ sent7.chip.now ∧
    (sent7.link 63).tx.episodes < max 1 (sent7.slotGet (F.linkTmoMaxretry 63)) ∧
    sent7.cycleOver = true ∧
    sent7.flag (F.linkStatusQuietPeer 63) = false ∧
    (sent7.link 63).rx.lastRx + 1000 * max 1 (sent7.slotGet (F.linkTmoAliveUs 63)) ≤ sent7.chip.now ∧
    (ready.link 63).tx.hasFlit 2 = true ∧
    nexts (exec (.linkRetryTimeout 63) sent7) (fun t => decide (
      (t.link 63).tx.resend = 1 ∧ (t.link 63).tx.episodes = 1 ∧ t.linkState 63 = lsActive ∧ t.word (R.linkCnt 63 lkRetryTmo) = 1)) = true ∧
    nexts (exec (.linkAliveTimeout 63) sent7) (fun t => decide (
      t.linkState 63 = lsRecover ∧ t.word (R.linkCnt 63 lkRecover) = 1 ∧ (t.link 63).train.resume = true)) = true ∧
    nexts (exec (.linkKeepalive 63) sent7) (fun t => decide (
      (t.link 63).tx.aliveDue = true)) = true ∧
    nexts (exec (.linkRetryTimeout 63) (sent7.updTx 63 (fun t => { t with episodes := sent7.slotGet (F.linkTmoMaxretry 63) }))) (fun t => decide (
      t.linkState 63 = lsRecover ∧ (t.link 63).tx.resend = 0)) = true ∧
    nexts (exec (.linkCreditStall 63 2) (ready.updTx 63 (fun t => { t with credits := [9, 9, 0, 9], stallAt := [none, none, some 0, none] }))) (fun t => decide (
      t.word (R.linkCnt 63 lkStall) = 1 ∧ (t.link 63).tx.stallAt = [none, none, some 1000000000000, none])) = true := by decide +kernel

def kept : TxPkt := TxPkt.own 2 5 1 (List.replicate 32 7) none []
def cut : State :=
  (((lk lsRecover).put (F.linkStatusLanesUp 63) 3).updTrain 63 (fun x => { x with resume := true, recoverAt := 0 })).updTx 63
    (fun t => { t with flight := [kept], seq := 99 })
def resyncBody : List Byte :=
  let b := wordsBytes [at_ 28 1 ||| at_ 22 9 ||| at_ 16 63, at_ 0 5, 0]
  b ++ wordBytes (crc32c b)
def resyncPkt : RxPkt :=
  { dst := 0, hops := 0, mg := true, nhdr := 0, bytes := resyncBody, whole := true, pab := false, cut := 0, taken := none,
    released := false, counted := false, places := 0, relay := none }
def waits : State :=
  (((got live 0 resyncPkt).put (F.linkPeerPeerId 63) 5).put (F.linkPeerPeerLink 63) 9).put (F.linkStatusResyncWait 63) 1

/-- R283, R284. -/
theorem test_dead :
    cut.linkState 63 = lsRecover ∧
    0 + 1000000 * max 1 (cut.slotGet (F.linkTmo2DeadMs 63)) ≤ cut.chip.now ∧
    (cut.link 63).tx.q = [[], [], [], []] ∧
    cut.flag (F.linkPeerValid 63) = false ∧
    cut.lanesUp 63 = false ∧
    waits.rxq 63 0 = [resyncPkt] ∧
    fld (wordAt resyncPkt.bytes 0) 21 16 = 63 ∧
    waits.get (F.linkPeerPeerId 63) = fld (wordAt resyncPkt.bytes 1) 11 0 ∧
    waits.get (F.linkPeerPeerLink 63) = fld (wordAt resyncPkt.bytes 0) 27 22 ∧
    (waits.link 63).tx.retained = [] ∧
    nexts (exec (.linkDeadTimeout 63) cut) (fun t => decide (
      t.linkState 63 = lsLanes ∧ t.word (R.linkCnt 63 lkDead) = 1 ∧ (t.link 63).tx.seq = 0 ∧ (t.link 63).tx.retained = [kept] ∧
      (t.link 63).train.resume = false)) = true ∧
    nexts (exec (.resync 63) waits) (fun t => decide (
      t.get (F.linkStatusResyncWait 63) = 0 ∧ t.rxq 63 0 = [])) = true := by decide +kernel

def kept0 : TxPkt := TxPkt.own 0 5 1 (List.replicate 32 8) none []
/-- Link 62 leads to package 5, and link 63 retains a packet. -/
def again (p : TxPkt) : State :=
  ((((waits.put (F.linkStatusState 62) lsActive).put (F.linkCtlEnc 62) 0).put (F.linkPeerValid 62) 1).put (F.linkPeerPeerId 62) 5).updTx 63
    (fun t => { t with retained := [p] })
def keptStub : TxPkt := { TxPkt.own 2 5 1 (stubHdrs 1 (List.replicate 32 7)) none [] with avoid := some 63 }

/-- R284: a stub of VC2, a whole packet of VC0, and one that the peer has. -/
theorem test_sent_again :
    kept.hdrsBefore 0 = false ∧ kept0.hdrsBefore 0 = false ∧ ({ kept with seqs := [4095] } : TxPkt).hdrsBefore 0 = true ∧
    (again kept).pktRoute keptStub = some 62 ∧ (again kept).vcRoom 62 2 = true ∧
    (again kept0).pktRoute kept0 = some 62 ∧
    (again kept).flag F.bootStageMember = true ∧
    W8.tpoison (W8.ofBytes (stubHdrs 1 (List.replicate 32 7))) = true ∧ W8.tlen (W8.ofBytes (stubHdrs 1 (List.replicate 32 7))) = 0 ∧
    nexts (exec (.resync 63) (again kept)) (fun t => decide (
      (t.link 62).tx.q = [[], [], [keptStub], []] ∧ (t.link 63).tx.retained = [] ∧ t.get (F.linkStatusResyncWait 63) = 0)) = true ∧
    nexts (exec (.resync 63) (again kept0)) (fun t => decide (
      (t.link 62).tx.q = [[kept0], [], [], []] ∧ (t.link 63).tx.retained = [])) = true ∧
    nexts (exec (.resync 63) (again { kept with seqs := [4095] })) (fun t => decide (
      (t.link 62).tx.q = [[], [], [], []] ∧ (t.link 63).tx.retained = [] ∧ t.limbo = [])) = true := by decide +kernel

def mb (op : Nat) (ws : List Word) : List Word := mboxMsg op 3 ws
/-- The key of job 0, epoch 4, of the direction given (1: receive), for peer 5 on link 63. -/
def keyMsg (dir : Nat) : List Word := mb 0x83 ([at_ 16 0 ||| at_ 0 4, at_ 10 5 ||| at_ 9 1 ||| at_ 8 dir ||| at_ 0 63] ++ List.replicate 8 0xA5A5A5A5#32)
def keyed : State := (fleet.put (F.linkPeerValid 63) 1).put (F.linkPeerPeerId 63) 5
def asked (st : Nat) : State := { up.put F.bootStageStage st with mbox := [⟨0x03, 7, 999990000000, []⟩, ⟨0x03, 8, 999990000001, []⟩] }

/-- R478: a receive key and a transmit key; R477: a reserved operation, and a bad check. -/
theorem test_mailbox_keys :
    keyed.powered = true ∧
    mboxOk (keyMsg 1) = true ∧
    mboxOp (keyMsg 1) = 0x83 ∧
    keyed.jobLive = true ∧
    fld ((keyMsg 1).getD 1 0) 31 16 = keyed.get F.jobIdId ∧
    fld ((keyMsg 1).getD 2 0) 5 0 = 63 ∧
    fld ((keyMsg 1).getD 2 0) 8 8 = 1 ∧
    fld ((keyMsg 0).getD 2 0) 8 8 = 0 ∧
    mboxOp (mb 0x84 []) = 0x84 ∧
    mboxOk [] = false ∧
    (asked 2).mboxLate.length = 1 ∧
    (asked 2).cycleOver = true ∧
    nexts (exec (.keySet (keyMsg 1)) keyed) (fun t => decide (
      t.word R.secKeySetCnt = 1 ∧ (t.link 63).keys.rx = [(⟨0, 4, 1, List.replicate 32 0xA5⟩ : Key)])) = true ∧
    nexts (exec (.keySet (keyMsg 0)) keyed) (fun t => decide (
      t.word R.secKeySetCnt = 1 ∧ ((t.link 63).keys.txNext = some (⟨0, 4, 1, List.replicate 32 0xA5⟩ : Key) ∨ (t.link 63).keys.tx = some (⟨0, 4, 1, List.replicate 32 0xA5⟩ : Key)))) = true ∧
    nexts (exec (.mailboxBadMessage (mb 0x84 [])) up) (fun t => decide (
      t.word R.secMboxErrCnt = 1)) = true ∧
    nexts (exec (.mailboxBadMessage []) up) (fun t => decide (
      t.word R.secMboxErrCnt = 1)) = true ∧
    nexts (exec .mailboxTimeout (asked 2)) (fun t => decide (
      t.word R.secRotTmoCnt = 1 ∧ t.mbox = [(⟨0x03, 7, 1000000000000, []⟩ : MboxReq), (⟨0x03, 8, 999990000001, []⟩ : MboxReq)] ∧ t.outs.length = 1)) = true ∧
    nexts (exec .mailboxTimeout (asked 1)) (fun t => decide (
      t.get F.bootStatusCode = 10 ∧ t.get F.bootStageStage = 0 ∧ t.chip.failed = true ∧ t.chip.fastOn = false)) = true := by decide +kernel

/-- The step with stream 1 PRESENT, and layer 0 in flight. -/
def base : State :=
  (stepping.putStream 1 ⟨true, 2, 0, 0, 0, 0, 0, 0⟩).updLayer 0 (fun r => { r with flying := true })
def w1 : Word := at_ 18 1 ||| at_ 1 7
/-- A BF16 row of 32 elements of 1.0. -/
def ones : List Byte := (List.replicate 32 [0x80, 0x3F]).flatten
def hsHdr (last : Bool) (rows : Nat) : W8 := (dieHdr 1 1 false last false (pad16 (4 * rows) / 16 + 4 * rows) 0 0 rows 0 0 0 0 0 0).sealed
def hsBody : List Byte := padTo 16 (wordBytes w1) ++ ones
def hsMsg : Staged := ⟨hsHdr false 1, hsBody, true, 0, 0⟩
def stagedHs : State := base.stage 0 0 (hsHdr false 1) hsBody true
def creditMsg : W8 := (dieHdr 9 0 false false false 0 0 0 0 0 (at_ 28 1 ||| at_ 0 6) 0 0 0 0).sealed

/-- R24: stream 1, position 7, on die 0. -/
theorem test_hs_tile :
    base.clocked = true ∧
    base.awake = true ∧
    base.errs = [] ∧
    base.upset = [] ∧
    base.hsHdrOk (hsHdr false 1) = true ∧
    hsMsg.body = W8.bodyOf (hsHdr false 1) hsBody ∧
    base.inStep = true ∧
    W8.dseq (hsHdr false 1) = base.stepSeq ∧
    (base.port 0).hs = [] ∧
    (base.layerRec 0).flying = true ∧
    (stagedHs.checkRows 0 hsMsg).errs = [] ∧ (stagedHs.checkRows 0 hsMsg).hive.mem = stagedHs.hive.mem ∧
    (stagedHs.checkRows 0 hsMsg).hsStepOk 0 hsMsg = true ∧
    ((stagedHs.checkRows 0 hsMsg).allocPay clHs 64 2 true (.hsPort 0)).1.isSome = true ∧
    ((stagedHs.checkRows 0 hsMsg).allocPay clHs 64 2 true (.hsPort 0)).2.errs = [] ∧
    (base.sieve 0).cur = none ∧
    hsRowBytes 1 (base.gateRec 0).h = 64 ∧
    base.hsHdrOk ⟨0, 0, 0, 0, 0, 0, 0, 0⟩ = false ∧
    nexts (exec (.hsTile 0 (hsHdr false 1) hsBody) base) (fun t => decide (
      (t.portHalf 0 0 0).toks.map (fun (x : Tok) => (x.stream, x.pos, x.scored)) = [(1, 7, false)] ∧ (t.port 0).hs = [] ∧
      ((t.portHalf 0 0 0).toks.head?.bind (·.hs)).map (fun hd => t.payload hd 64) = some ones)) = true ∧
    nexts (exec (.hsTile 0 ⟨0, 0, 0, 0, 0, 0, 0, 0⟩ []) base) (fun t => decide (
      t.word (R.rasDieportHdrCnt 0) = 1 ∧ t.flag F.rasStatusPartBusy = true)) = true := by decide +kernel

/-- Three credits of RES are owed on die 0; a manifest waits too, passed over 16 times. -/
def owing : State := base.updDie 0 (fun p => { p with owed := [0, 3, 0] })
def passedOver : State := owing.updDie 0 (fun p => { p with mans := [(0, 1)], held := [9, 9, 9], passed := updAt p.passed pcManifest (fun _ => [16]) })

/-- R506, R27: six credits of TILE; three owed of RES. -/
theorem test_credits :
    grantedClass (fld creditMsg.w2 31 28) = some 0 ∧
    creditMsg.ok = true ∧
    W8.dlen creditMsg = 0 ∧
    base.creditsOpen = true ∧
    owing.portPick 0 = some pcCredit ∧
    (owing.port 0).creditNext = some 1 ∧
    owing.creditReady 0 = true ∧
    (owing.readyClasses 0).all (fun j => decide (((owing.port 0).passed.getD j []).headD 0 < 16)) = true ∧
    passedOver.portPick 0 = some pcManifest ∧
    pcManifest ∈ passedOver.readyClasses 0 ∧
    16 ≤ ((passedOver.port 0).passed.getD pcManifest []).headD 0 ∧
    nexts (exec (.creditRx 0 creditMsg []) base) (fun t => decide (
      (t.port 0).held = updAt (base.port 0).held 0 (· + 6) ∧ t.regs = base.regs)) = true ∧
    nexts (exec (.creditSend 0 1) owing) (fun t => decide (
      (t.port 0).owed = [0, 0, 0] ∧ t.outs = [Out.dieMsg 0 (dieHdr 9 0 false false false 0 0 0 0 0 (at_ 28 (ownClassCode 1) ||| at_ 0 3) 0 0 0 0).sealed []])) = true := by decide +kernel

/-- Its hidden-state row is in the Hive: one live token on die 0, every die's last tile is in. -/
def tokIn : State :=
  let s1 := match base.allocPay clHs 64 2 true (.hsPort 0) with
    | (some hd, u) => (u.writePay hd 0 ones).addTok 0 0 0 hsMsg w1 hd
    | (none, u) => u
  (List.range 4).foldl (fun s a => s.updPort 0 0 a (fun p => { p with last := true })) s1
/-- Its page is in the tile store for the next pass, and the token's logits at the scoring unit. -/
def stored (s : State) : State :=
  s.updSieve 0 (fun x => { x with nextLayer := some 0, store := [⟨0, 0, 0, 0, s.pageBytes (s.gateRec 0) (0, 0)⟩] })
def pageIn : State := tokIn.updSieve 0 (fun x => { x with cur := some (0, 0), ready := [⟨0, 0, 0, [77]⟩] })
def theTok : Tok := (pageIn.tok 0 0 0 0).getD ⟨0, 0, 0, none, 0, false, false, none, [], [], false, false, [], none, none, false⟩

/-- R25 in RUNNING: the partition resets. -/
theorem test_reserved :
    base.flag F.rasStatusPartBusy = false ∧
    base.jobState = jsRunning ∧
    base.links.all (fun l => l.tx.q.all (fun q => q.all (fun p => p.sent == 0 || p.pay.isNone))) = true ∧
    base.limbo = [] ∧
    nexts (exec (.dieportReservedMsg 3 ⟨0xF0000000#32, 0, 0, 0, 0, 0, 0, 0⟩ []) base) (fun t => decide (
      t.word (R.rasDieportHdrCnt 3) = 1 ∧ t.get F.rasErrLastSrc = 1 ∧ t.get F.rasErrLastUnit = 3 ∧ t.get F.hiveZeroBusy = 1 ∧
      t.step = StepSt.reset ∧ t.job.after = AfterZero.toFaulted)) = true ∧
    nexts (exec (.dieportReservedMsg 3 ⟨0, 0, 0, 0, 0, 0, 0, 0⟩ []) up) (fun t => decide (
      t.word R.rasCtrlErrCnt = 1 ∧ t.hive = up.hive ∧ t.jobState = jsIdle)) = true ∧
    nexts (exec (.dieportReservedMsg 3 ⟨0x70000001#32, 0, 0, 0, 0, 0, 0, 0⟩ []) up) (fun t => decide (
      (t.port 3).owed = [0, 0, 1] ∧ t.word R.rasCtrlErrCnt = 1)) = true := by decide +kernel

/-- R505, R86: a load before its tokens, one with the token, the ramp's first and last step. -/
theorem test_sieve :
    (stored base).nextHalf 0 = some (0, 0) ∧
    (stored base).inStep = true ∧
    (stored base).sieveDone 0 = true ∧
    (stored base).tileHere 0 0 ((stored base).passOf 0 0) 1 0 = true ∧
    chooseShape (base.gateRec 0) (base.get (F.sieveCtlShapeMode 0)) 0 = 1 ∧
    ((stored base).sieve 0).bad.contains 0 = false ∧
    (base.portHalf 0 0 0).toks = [] ∧ (base.portHalf 0 0 0).last = false ∧
    (base.put (F.sieveFloorEn 0) 1).floorOn 0 = true ∧
    base.floorOn 0 = false ∧
    nexts (exec (.sieveTileLoadStart 0) (stored base)) (fun t => decide (
      (t.sieve 0).cur = some (0, 0) ∧ (t.sieve 0).shadow.isSome = true ∧ t.get (F.sieveStatusShape 0) = 1 ∧ t.hive = base.hive)) = true ∧
    nexts (exec (.sieveTileLoadStart 0) (stored tokIn)) (fun t => decide (
      (t.sieve 0).ready.map (fun (r : Logits) => (r.layer, r.half, r.tok)) = [(0, 0, 0)] ∧ t.get (F.sieveStatusShape 0) = 0 ∧
      t.word (R.sieveTileCnt 0) = 1)) = true ∧
    nexts (exec (.sieveRampStart 0) ((base.put (F.sieveFloorEn 0) 1).updSieve 0 (fun x => { x with ramp := 1 }))) (fun t => decide (
      (t.sieve 0).ramp = 2 ∧ (t.sieve 0).rampStep = 0 ∧ t.word (R.sieveFloorCnt 0) = BitVec.ofNat 32 (max 64 (base.eff (F.sieveFloorGap 0))))) = true ∧
    nexts (exec (.sieveRampStep 0) ((base.put (F.sieveFloorEn 0) 1).updSieve 0 (fun x => { x with ramp := 2, rampStep := 15 }))) (fun t => decide (
      (t.sieve 0).ramp = 0 ∧ (t.sieve 0).dummyRows = 0 ∧ t.word (R.sieveFloorCnt 0) = 150)) = true ∧
    nexts (exec (.sieveRampStep 0) (base.updSieve 0 (fun x => { x with ramp := 2, rampStep := 14, dummyRows := 32 }))) (fun t => decide (
      (t.sieve 0).ramp = 1 ∧ (t.sieve 0).dummyRows = 256 ∧ t.word (R.sieveFloorCnt 0) = 0)) = true := by decide +kernel

/-- The pager works for layer 0. -/
def paging : State := base.updSieve 0 (fun x => { x with nextLayer := some 0 })

/-- The gate record's weights and shifts by row and block, cut into the tiles of every shape. -/
def cutTile (sh q : Nat) : SieveTile :=
  let g := base.gateRec 0
  ⟨g.fmt, q, (List.range (min (shapeRows sh) (g.kr - q * shapeRows sh))).map (fun k => [q * shapeRows sh + k]),
    (List.range (2 * cellElems g.fmt * (shapeRows sh / 64))).map (fun b =>
      [2 * cellElems g.fmt * (q * shapeRows sh / 64) + b])⟩

theorem test_tiles_of_every_shape : ∀ sh q, cutTile sh q =
    ⟨(base.gateRec 0).fmt, q, (List.range (min (shapeRows sh) ((base.gateRec 0).kr - q * shapeRows sh))).map (fun k =>
      [(fun n : Nat => n) (q * shapeRows sh + k)]),
    (List.range (2 * cellElems (base.gateRec 0).fmt * (shapeRows sh / 64))).map (fun b =>
      [(fun n : Nat => n) (2 * cellElems (base.gateRec 0).fmt * (q * shapeRows sh / 64) + b)])⟩ := fun _ _ => rfl

/-- R95. -/
theorem test_page_fetch :
    paging.pagerPage 0 = some (⟨0, 0, (0, 0), []⟩ : PageReq) ∧
    paging.job.model ≠ none ∧
    paging.hive.upsets = [] ∧
    recOk 8 (paging.gateBytes 0) = true ∧
    (paging.sieve 0).bad = [] ∧
    (paging.sieve 0).cur = none ∧
    nexts (exec (.sievePageFetchDone 0 5) paging) (fun t => decide (
      (t.sieve 0).store = [(⟨0, 0, 0, 0, paging.pageBytes (paging.gateRec 0) (0, 0)⟩ : SievePage)] ∧ t.word (R.sievePageCnt 0) = 1 ∧
      t.word (R.sieveStallCnt 0) = 5)) = true := by decide +kernel

/-- R107: the one expert, whatever its logit. -/
theorem test_scored :
    pageIn.sieveWork 0 = some (0, 0, 0) ∧
    theTok.stream = 1 ∧ theTok.hs.isSome = true ∧
    pageIn.hive.upsets = [] ∧
    recOk 8 (pageIn.selBytes 0) = true ∧
    theTok.hs.all (fun hd => pageIn.handleOk hd) = true ∧
    nexts (exec (.scoringTokenDone 0 0) pageIn) (fun t => decide (
      (t.tok 0 0 0 0).map (fun (y : Tok) => (y.scored, y.leaves.map (fun (z : Leaf) => (z.leaf, z.expert, z.dest, z.g)))) = some (true, [(0, 0, 0, 0x3F800000)]) ∧
      t.word (R.selTokCnt 0) = 1 ∧ t.word R.rasNonfiniteCnt = 0)) = true := by decide +kernel

/-- The token is scored: one leaf of expert 0 with the weight 1.0. -/
def leaf0 : Leaf := ⟨0, 0, 0, 0x3F800000, 0, .open_⟩
def scoredIn : State := (List.range 4).foldl (fun s a => s.updPort 0 1 a (fun p => { p with last := true }))
  (tokIn.updPort 0 0 0 (fun p => { p with toks := p.toks.map (fun x => { x with scored := true, leaves := [leaf0], scores := [0x3F800000] }) }))
def running1 : State := scoredIn.updHalf 0 0 (fun r => { r with cap := 1, th := 1 })
/-- Its dispatch payload is written too. -/
def dispIn : State :=
  match running1.allocPay clDisp 32 1 true (.whisk 0) with
  | (some dh, u) => (u.writePay dh 0 (List.replicate 32 1)).updPort 0 0 0 (fun p => { p with toks := p.toks.map (fun x =>
      { x with whisked := true, disp := some dh }) })
  | (none, u) => u

/-- R117. -/
theorem test_cap_start :
    scoredIn.capReady 0 0 = true ∧
    scoredIn.member = false ∧
    nexts (exec (.capacityPassStart 0 0) scoredIn) (fun t => decide (
      (t.half 0 0).cap = 1 ∧ (t.half 0 0).th = 1 ∧ t.get (F.selStatusCapPass 3) = 1 ∧ t.hive = scoredIn.hive)) = true := by decide +kernel

/-- R119: in island mode the copy is local. -/
theorem test_cap_end :
    dispIn.capCanEnd 0 0 = true ∧
    (dispIn.capEnd 0 0).errs = [] ∧
    placeAll [0, 7] (fun _ => 1) [] [0, 0, 7] = [some 0, some 7, none] ∧
    nexts (exec (.capacityPassEnd 0 0) dispIn) (fun t => decide (
      (t.half 0 0).cap = 2 ∧ (t.half 0 0).th = 1 ∧ t.get (F.selStatusCapPass 0) = 0 ∧
      (t.cluster 4).appendQ.map (fun (x : Append) => (x.expert, x.loc)) = [(0, true)] ∧ t.tiles.live = [])) = true := by decide +kernel

def hsAt : Handle := (theTok.hs).getD ⟨0, 0, 0⟩
def whiskSt : State := ((running1.whiskReadOk 0 0).2.useHandle hsAt 64 .whisk 0 none).2
def whiskG : Option Handle × State := whiskSt.allocPay clDisp 32 1 true (.whisk 0)
def whiskOut : List Byte × ConvEv := running1.quantise 0 (running1.offsetOf 0) 1 ones

/-- R145: INT8 from BF16 ones. -/
theorem test_whisk :
    running1.hive.upsets = [] ∧
    ((whiskSt.allocPay clDisp 32 1 true (.whisk 0)).1.all (fun dh => ((whiskSt.allocPay clDisp 32 1 true (.whisk 0)).2.writePay dh 0 (running1.quantise 0 (running1.offsetOf 0) 1 ones).1).handleOk hsAt)) = true ∧
    running1.whiskNext 0 = some (0, 0, 0) ∧
    (running1.whiskReadOk 0 0).1 = true ∧
    ((running1.whiskReadOk 0 0).2.useHandle hsAt 64 .whisk 0 none).1 = true ∧
    running1.payload hsAt 64 = ones ∧
    whiskSt.hive.upsets = [] ∧
    (whiskSt.allocPay clDisp 32 1 true (.whisk 0)).1.isSome = true ∧
    (whiskSt.allocPay clDisp 32 1 true (.whisk 0)).2.errs = [] ∧
    (running1.quantise 0 (running1.offsetOf 0) 1 ones).1.length = 32 ∧
    nexts (exec (.whiskPayloadWritten 0) running1) (fun t => decide (
      (t.tok 0 0 0 0).map (fun (y : Tok) => (y.whisked, y.disp.isSome, y.leaves)) = some (true, true, [leaf0]) ∧ t.word (R.whiskTokCnt 0) = 1 ∧
      ((t.tok 0 0 0 0).bind (·.disp)).map (fun dh => t.payload dh 32) = some whiskOut.1 ∧
      sameHive t.hive (((whiskG.2.writePay (whiskG.1.getD ⟨0, 0, 0⟩) 0 whiskOut.1).release hsAt 0 none).hive) = true)) = true := by decide +kernel

/-- The capacity pass has ended; the copy of expert 0 went to a tile that has been sent to die 2, in slot 5. -/
def fullHdr (exp : Nat) (src dest : Nat) : W8 :=
  { w0 := at_ 28 1 ||| at_ 24 10 ||| at_ 0 2, w1 := at_ 18 1 ||| at_ 1 7, w2 := at_ 21 exp ||| at_ 1 dest, w3 := 0x3F800000#32, w4 := 0,
    w5 := at_ 23 src ||| at_ 18 4, w6 := 0, w7 := 0 }
def tile0 : Tile := ⟨9, 1, 0, 0, 0, 2, [⟨5, false, false⟩], true, 16, 0, 0, true⟩
def out1 : State :=
  let s1 := scoredIn.updPort 0 0 0 (fun p => { p with toks := p.toks.map (fun x => { x with whisked := true, recd := true }) })
  ((s1.updHalf 0 0 (fun r => { r with cap := 2, th := 1 })).writeSlot 5 (fullHdr 0 0 0).sealed none clDisp true 0).updTiles (fun _ => [tile0])
/-- One row of FP32, as the layer's CFMT asks: no conversion. -/
def resHdrOf (fmt last : Nat) : W8 := (dieHdr 4 fmt false (last == 1) false 8 0 0 1 0 (at_ 21 0) (at_ 0 tile0.tag) 0 0 0).sealed
def resBody : List Byte := (List.replicate 32 [0, 0, 0x80, 0x3F]).flatten
def stagedRes : State := out1.stage 2 1 (resHdrOf 0 0) resBody true
def resBack : W8 := out1.resHdr (out1.slotHdr 5) false
def resG : Option Handle × State := (stagedRes.slotRead .dieRx 2 5).2.allocPay clRes (out1.resBytes 0) 1 true (.resPort 2)
/-- The Hive after the row `b` has come back, under the header `res`, into the payload granted. -/
def resHive (g : Option Handle × State) (res : W8) (b : List Byte) : Hive :=
  (((g.2.writePay (g.1.getD ⟨0, 0, 0⟩) 0 b).writeSlot 5 res g.1 clRes true (at_ 0 tile0.tag)).setOwner 5 (at_ 0 tile0.tag) (at_ 0 0) 0).hive

/-- R310, R307: the row of the own token of region 0. -/
theorem test_result_row :
    out1.hive.upsets = [] ∧ out1.upset = [] ∧
    (out1.port 2).res = [] ∧
    W8.texpert resBack < 1024 ∧
    out1.needsConv 0 (resHdrOf 0 0) = false ∧
    (resHdrOf 0 0).ok = true ∧
    out1.tagTile 2 (resHdrOf 0 0).w3 = some tile0 ∧
    out1.resOk tile0 (resHdrOf 0 0) = true ∧
    W8.tsrc (out1.slotHdr 5) = out1.self ∧
    W8.tdest resBack = out1.self ∧
    W8.texpert resBack = 0 ∧
    resG.1.isSome = true ∧
    resG.2.errs = [] ∧
    resFirst (resHdrOf 0 0) = 0 ∧
    slice (W8.bodyOf (resHdrOf 0 0) resBody) 0 (out1.resRowBytes 0 (resHdrOf 0 0)) = resBody ∧
    out1.owedNothing (W8.tsrc (out1.slotHdr 5)) = false ∧
    out1.findLeaf 0 0 (W8.tclu resBack / 8) resBack = some (0, 0) ∧
    out1.leafState 0 0 0 0 0 = some .open_ ∧
    nexts (exec (.expResult 2 (resHdrOf 0 0) resBody) out1) (fun t => decide (
      (t.port 2).res = [] ∧ (t.tok 0 0 0 0).map (fun (y : Tok) => y.avail) = some [0] ∧
      ((t.tok 0 0 0 0).bind (·.leafAt 0)).map (fun (z : Leaf) => z.st != LeafState.open_) = some true ∧
      sameHive t.hive (resHive resG resBack resBody) = true)) = true := by decide +kernel

/-- The payload and slot of a leaf. -/
def leafBytes (t : State) (z : Leaf) : List Byte × Nat := match z.st with | .used p n => (t.payload p 64, n) | _ => ([], 0)
/-- The same with combined rows of BF16: the FP32 row is staged for the Whisk. -/
def outBf : State := out1.hput whiskBase (sealWords [at_ 28 0xA ||| at_ 14 1, 0, 0, 0, 0, 0, 0])
def convG (s : State) : Option Handle × State :=
  ((s.slotRead .dieRx 2 5).2.whiskRecRead 2 0).2.allocPay clRes 64 1 true (.resPort 2)
def convOut : List Byte × ConvEv :=
  encodePayload (outBf.whiskRec 0).cfmt (outBf.whiskRec 0).cblock true 0 (decodePayload 0 false 0 (outBf.gateRec 0).h resBody)
def convSt : State := outBf.updDie 2 (fun p => { p with res := [⟨resHdrOf 0 0, W8.bodyOf (resHdrOf 0 0) resBody, true, 0, 0⟩] })

/-- R149, R150. -/
theorem test_result_converted :
    convSt.hive.upsets = [] ∧ convSt.owedNothing (W8.tsrc (convSt.slotHdr 5)) = false ∧
    ((convSt.slotRead .dieRx 2 5).2.whiskRecRead 2 0).1 = true ∧
    (convG convSt).2.errs = [] ∧
    convOut.1 = ones ∧
    outBf.needsConv 0 (resHdrOf 0 0) = true ∧
    convSt.resOk tile0 (resHdrOf 0 0) = true ∧
    convSt.resBytes 0 = 64 ∧
    (convG convSt).1.isSome = true ∧
    nexts (exec (.whiskResultConverted 2) convSt) (fun t => decide (
      (t.port 2).res = [] ∧ (t.tok 0 0 0 0).map (fun (y : Tok) => y.avail) = some [0] ∧
      ((t.tok 0 0 0 0).bind (·.leafAt 0)).map (fun (z : Leaf) => leafBytes t z) = some (ones, 5) ∧
      sameHive t.hive (resHive (convG convSt) (convSt.resHdr (convSt.slotHdr 5) false) convOut.1) = true ∧ t.word (R.whiskResSatCnt 2) = BitVec.ofNat 32 convOut.2.sat ∧ t.word (R.whiskNanCnt 2) = 0)) = true := by decide +kernel

/-- The Whisk of region 0 waits for a payload in pool 0, and region 1's die port for pool 5. -/
def refreshed : State := { base with bus := { base.bus with refreshed := [(0, base.refCount 0)] } }
def waitingW : State := { running1 with hive := { running1.hive with waiting := [⟨0, true, .whisk 0⟩] } }

/-- R183, R188: a grant with seven cycles of waiting; a refresh in a granted burst, and of a quiet channel. -/
theorem test_hive_requests :
    waitingW.purgeWaiters.nextWaiter 0 = some ⟨0, true, .whisk 0⟩ ∧
    ((base.freeSlot 63).popSlot true).1 = 63 ∧
    ((base.freeSlot 63).popSlot true).2.hive.slotHead = base.hive.slotHead % 2 ^ 32 ∧
    (base.hput 70 [1, 2]).hiveByte 71 = 2 ∧
    (base.hput 70 [1, 2]).hiveByte 72 = base.hiveByte 72 ∧
    Memory.wf (base.hput 70 [1, 2]) = true ∧
    base.refreshDue 4095 = true ∧
    refreshed.refreshDue 0 = false ∧
    nexts (exec (.hiveAllocGrant 0 7) waitingW) (fun t => decide (
      t.word R.hiveWaitCnt = 7 ∧ (t.tok 0 0 0 0).map (fun (y : Tok) => y.whisked) = some true)) = true ∧
    nexts (exec (.hiveRefresh 4095) { base with bus := base.bus.updChan 4095 (fun c => { c with held := some ((⟨HiveGroup.sieve, 0, 4095 * 512, 16, false, 0⟩ : Burst), 3) }) }) (fun t => decide (
      t.word R.hivePreemptCnt = 1 ∧ (t.bus.chan 4095).emer = 40 ∧ (t.bus.chan 4095).held.isSome = true ∧ t.refreshDue 4095 = false)) = true ∧
    nexts (exec (.hiveRefresh 0) refreshed) (fun t => decide (
      t.word R.hivePreemptCnt = 0 ∧ (t.bus.chan 0).emer = 0)) = true := by decide +kernel

/-- The fleet's Hive with stream 1 PRESENT. -/
def streamMem : List (Nat × Byte) :=
  [(0, 32#8), (2, 1#8), (3, 160#8), (16, 64#8), (28, 172#8), (29, 206#8), (30, 228#8), (31, 60#8), (8196, 1#8), (8197, 224#8),
   (8198, 63#8), (8202, 128#8), (8203, 63#8), (8206, 128#8), (8207, 63#8), (8220, 157#8), (8221, 62#8), (8222, 119#8), (8223,
   139#8), (16387, 160#8), (16412, 187#8), (16413, 248#8), (16414, 42#8), (16415, 126#8), (2097408, 1#8), (2097411, 128#8),
   (2097412, 2#8), (2097660, 10#8), (2097661, 207#8), (2097662, 28#8), (2097663, 89#8), (16777216, 1#8), (16777220, 2#8),
   (16777228, 1#8), (16777232, 199#8), (16777233, 75#8), (16777234, 103#8), (16777235, 72#8), (16777236, 3#8), (16777248, 161#8),
   (16777340, 14#8), (16777341, 255#8), (16777342, 73#8), (16777343, 250#8), (16781312, 129#8), (16781376, 2#8), (16781436, 55#8),
   (16781437, 250#8), (16781438, 3#8), (16781439, 132#8)]
/-- In the fleet: the pass has ended, and cluster 4 holds a packet of the copy for package 7, reached over link 63. -/
def fleetStep : State :=
  let s1 := (withMem fleet streamMem).updStep (fun x => { x with
    inProg := true, fleet := true, ordered := true, buckets := [(rows0, 0)] })
  let s2 := (s1.setNum R.stepWaitSeq 1).updJob (fun j => { j with anyAccepted := true })
  (((s2.put (F.linkStatusState 63) lsActive).put (F.linkCtlEnc 63) 0).setNum (R.linkVcbuf 63) 0x40404040).updTx 63
    (fun t => { t with credits := [64, 64, 64, 64] })
def hop : State := ((fleetStep.put (F.linkPeerValid 63) 1).put (F.linkPeerPeerId 63) 7).updLayer 0 (fun r => { r with flying := true })
def leaf7 : Leaf := { leaf0 with dest := 7 }
def tok7 : Tok := ⟨1, 7, 0, none, 1, true, true, some ⟨0, 3, 0⟩, [leaf7], [0x3F800000], true, false, [], none, none, false⟩
def pkt7 : OutPkt := ⟨7, 0, 0, 1, 7, [0], 0, some ⟨0, 3, 0⟩⟩
def handing : State :=
  (hop.updPort 0 0 0 (fun p => { p with toks := [tok7], last := true })).updHalf 0 0 (fun r => { r with
    cap := 2, th := 1, queues := updAt r.queues 4 (fun _ => [pkt7]) })
def hb7 : List Byte := (handing.packetHdrs 0 0 pkt7 tok7 [leaf7] 1 false).flatMap W8.bytes
def manifests : State := hop.updHalf 0 0 (fun r => { r with cap := 2, mansReady := true, mans := updAt r.mans 9 (fun _ => [7]) })
def manH : W8 := manifests.manHdr 0 0 7 1 (((manifests.half 0 0).manBody 7).length / 16)
/-- A token of the member is selected. -/
def fleetScored : State := (List.range 4).foldl (fun s a => s.updPort 0 0 a (fun p => { p with last := true }))
  (hop.updPort 0 0 0 (fun p => { p with toks := [{ tok7 with whisked := false, recd := false, disp := none }] }))

/-- R117, R234: in the fleet. -/
theorem test_cap_start_member :
    fleetScored.capReady 0 0 = true ∧
    fleetScored.member = true ∧
    fleetScored.hive.upsets = [] ∧
    hdrOk fleetScored.modelLayers (fleetScored.rosterHdr (fleetScored.copyAt fleetScored.stepSeq)) = true ∧
    nexts (exec (.capacityPassStart 0 0) fleetScored) (fun t => decide (
      (t.half 0 0).cap = 1 ∧ (t.half 0 0).th = 1 ∧ t.hive = fleetScored.hive)) = true := by decide +kernel

/-- R202, R204. -/
theorem test_handover :
    handing.isLost 7 = false ∧ manifests.isLost 7 = false ∧
    handing.nextSend 4 = some (0, 0) ∧
    (handing.half 0 0).queues.getD 4 [] = [pkt7] ∧
    (handing.checkStream .cluTx 4 1).errs = [] ∧
    ((handing.checkStream .cluTx 4 1).allocSlots 1 true (.hand 4)).1.isSome = true ∧
    handing.packetLeaves 0 0 pkt7 = some (tok7, [leaf7]) ∧
    handing.flushed 4 1 = false ∧
    (handing.half 0 0).epoch = 1 ∧
    handing.routeOf 2 (handing.cmidOf 7) none hb7 = some 63 ∧
    handing.vcRoom 63 2 = true ∧
    manifests.nextSend 9 = some (0, 0) ∧
    (List.range 32).all (fun k => k == 9 || manifests.nextSend k != some (0, 0)) = true ∧
    (manifests.half 0 0).mansReady = true ∧
    (manifests.half 0 0).mans.getD 9 [] = [7] ∧
    manifests.routeOf 2 (manifests.cmidOf 7) none manH.bytes = some 63 ∧
    nexts (exec (.cluPacketHandover 4) handing) (fun t => decide (
      ((t.link 63).tx.q.getD 2 []).map (fun (p : TxPkt) => (p.dst, p.nhdr, p.bytes == hb7, p.pay)) = [(7, 1, true, some ((⟨0, 3, 0⟩ : Handle), handing.dispBytes 0))] ∧
      t.word (R.cluPktTxCnt 4) = 1 ∧ t.word (R.cluHdrTxCnt 4) = 1 ∧ (t.half 0 0).queues.getD 4 [] = [])) = true ∧
    nexts (exec (.cluManifestSend 0 0) manifests) (fun t => decide (
      (t.link 63).tx.q.getD 2 [] = [TxPkt.own 2 7 1 (manH.bytes ++ (manifests.half 0 0).manBody 7) none []] ∧ t.word (R.cluManTxCnt 9) = 1)) = true := by decide +kernel

/-- The header of a copy of expert 0 from package 7, with its 32 B of INT8, as a packet of VC2. -/
def rxOfHdr (h : W8) (body : List Byte) : RxPkt :=
  { dst := 0, hops := 0, mg := false, nhdr := 1, bytes := h.sealed.bytes ++ body, whole := true, pab := false, cut := 0,
    taken := none, released := false, counted := false, places := 1, relay := none }
def dispRx : RxPkt := rxOfHdr { fullHdr 0 7 0 with w5 := at_ 23 7 ||| at_ 18 4 ||| at_ 2 1, w6 := at_ 16 5 } (List.replicate 32 3)
def manBody1 : List Byte := ({ hop.newHalf with sentHdrs := [(0, 0)], sentPkts := [0] } : HalfRec).manBody 0
def manRx : RxPkt := rxOfHdr { w0 := at_ 28 3 ||| at_ 21 1 ||| at_ 0 (manBody1.length / 16), w1 := 0, w2 := 0, w3 := 0, w4 := 0,
                               w5 := at_ 23 7 ||| at_ 2 1, w6 := 0, w7 := 0 } manBody1
def resRx : RxPkt := rxOfHdr { w0 := at_ 28 2 ||| at_ 0 8, w1 := at_ 18 1 ||| at_ 1 7, w2 := 0, w3 := 0x3F800000#32, w4 := 0,
                               w5 := at_ 23 7 ||| at_ 18 4 ||| at_ 2 1, w6 := 0, w7 := 0 } resBody

def dispSt : State := got hop 2 dispRx
def dispG : Option Handle × State := (dispSt.allocSlots 1 false (.rx 63 2)).2.allocPay clDisp 32 1 false (.rx 63 2)
def dispSlots : List Nat := ((dispSt.allocSlots 1 false (.rx 63 2)).1).getD []
def dispHd : Handle := dispG.1.getD ⟨9, 0, 0⟩
def resSt : State := got hop 3 resRx
def resRxG : Option Handle × State := (resSt.allocSlots 1 true (.rx 63 3)).2.allocPay clRes 128 1 true (.rx 63 3)
def resSlot : Nat := ((resSt.allocSlots 1 true (.rx 63 3)).1.getD []).headD 99
def resHd : Handle := resRxG.1.getD ⟨9, 0, 0⟩

/-- R199, R205, R209: one header of each kind from package 7. -/
theorem test_received :
    (manEntries (padTo 16 manRx.body)).all (fun e => decide (e.1 < 1032)) = true ∧
    hop.member = true ∧
    hop.upset = [] ∧
    (got hop 2 dispRx).rxHead 63 2 = some (0, dispRx) ∧
    W8.ttype (dispRx.hdr 0) = 1 ∧
    hop.pktOk 2 dispRx = true ∧
    hop.stepOf (dispRx.hdr 0) = some 0 ∧
    (dispSt.allocSlots 1 false (.rx 63 2)).1.isSome = true ∧
    dispG.1.isSome = true ∧
    dispG.2.errs = [] ∧
    dispSlots.Nodup ∧ (dispRx.hdrs.zip dispSlots).length = 1 ∧
    dispHd.pool = 0 ∧ 32 ≤ 512 * (dispG.2.chainCells 1 dispHd.cell).length ∧ (dispG.2.chainCells 1 dispHd.cell).Nodup ∧
    (dispG.2.writePay dispHd 0 dispRx.body).chainCells 1 dispHd.cell = dispG.2.chainCells 1 dispHd.cell ∧
    ((hop.half 0 0).rxOf 7).man = none ∧
    (got hop 2 manRx).rxHead 63 2 = some (0, manRx) ∧
    W8.ttype (manRx.hdr 0) = 3 ∧
    hop.pktOk 2 manRx = true ∧
    manCrcOk (padTo 16 manRx.body) = true ∧
    (wordAt (padTo 16 manRx.body) 0).toNat = 1 ∧
    sumNat ((manEntries (padTo 16 manRx.body)).map (·.2)) = 1 ∧
    (got hop 3 resRx).rxHead 63 3 = some (0, resRx) ∧
    hop.pktOk 3 resRx = true ∧
    (resSt.allocSlots 1 true (.rx 63 3)).1.isSome = true ∧
    resRxG.1.isSome = true ∧
    resRxG.2.errs = [] ∧
    nexts (exec (.dispatchPacketRx 63) (got hop 2 dispRx)) (fun t => decide (
      (t.rxq 63 2).map (fun (p : RxPkt) => (p.taken.isSome, p.counted, p.places)) = [(true, true, 0)] ∧ t.word (R.cluHdrRxCnt 31) = 1 ∧
      ((t.half 0 0).rxOf 7).count = 1 ∧
      t.hive = (((dispG.2.unwait false (.rx 63 2)).fillSlots dispRx.hdrs dispSlots (some dispHd) clDisp false 0 0).writePay dispHd 0 dispRx.body).hive ∧
      t.payload dispHd 32 = List.replicate 32 3#8 ∧ dispSlots.map t.slotHdr = dispRx.hdrs)) = true ∧
    nexts (exec (.manifestRx 63) (got hop 2 manRx)) (fun t => decide (
      t.rxq 63 2 = [] ∧ t.word (R.cluManRxCnt 31) = 1 ∧ ((t.half 0 0).rxOf 7).man = some (1, [(0, 1)]))) = true ∧
    nexts (exec (.resultPacketRx 63) (got hop 3 resRx)) (fun t => decide (
      (t.rxq 63 3).map (fun (p : RxPkt) => (p.taken.isSome, p.counted)) = [(true, true)] ∧ t.step = hop.step ∧
      t.hive = ((((resRxG.2.unwait true (.rx 63 3)).writeSlot resSlot (resRx.hdr 0) (some resHd) clRes true 0).setOwner resSlot 0 0 0).writePay resHd 0 resRx.body).hive)) = true := by decide +kernel

/-- The Hive of that step, where slot 6 and a cell hold a copy from package 7 with its 32 B. -/
def payMem : List (Nat × Byte) :=
  [(0, 32#8), (2, 1#8), (3, 160#8), (16, 64#8), (28, 172#8), (29, 206#8), (30, 228#8), (31, 60#8), (8196, 1#8), (8197, 224#8),
   (8198, 63#8), (8202, 128#8), (8203, 63#8), (8206, 128#8), (8207, 63#8), (8220, 157#8), (8221, 62#8), (8222, 119#8), (8223,
   139#8), (16387, 160#8), (16412, 187#8), (16413, 248#8), (16414, 42#8), (16415, 126#8), (2097408, 1#8), (2097411, 128#8),
   (2097412, 2#8), (2097660, 10#8), (2097661, 207#8), (2097662, 28#8), (2097663, 89#8), (16777216, 1#8), (16777220, 2#8),
   (16777228, 1#8), (16777232, 199#8), (16777233, 75#8), (16777234, 103#8), (16777235, 72#8), (16777236, 3#8), (16777248, 161#8),
   (16777340, 14#8), (16777341, 255#8), (16777342, 73#8), (16777343, 250#8), (16781312, 129#8), (16781376, 2#8), (16781436, 55#8),
   (16781437, 250#8), (16781438, 3#8), (16781439, 132#8), (268435840, 2#8), (268435843, 26#8), (268435844, 14#8), (268435846,
   4#8), (268435854, 128#8), (268435855, 63#8), (268435860, 4#8), (268435862, 144#8), (268435863, 3#8), (268435866, 5#8),
   (268435868, 5#8), (268435869, 127#8), (268435870, 82#8), (268435871, 54#8), (268435878, 4#8), (268435880, 255#8), (268435881,
   255#8), (268435882, 255#8), (268435883, 255#8), (269484033, 64#8), (269484034, 1#8), (269484036, 255#8), (269484037, 255#8),
   (269484038, 255#8), (269484039, 255#8), (814383104, 3#8), (814383105, 3#8), (814383106, 3#8), (814383107, 3#8), (814383108,
   3#8), (814383109, 3#8), (814383110, 3#8), (814383111, 3#8), (814383112, 3#8), (814383113, 3#8), (814383114, 3#8), (814383115,
   3#8), (814383116, 3#8), (814383117, 3#8), (814383118, 3#8), (814383119, 3#8), (814383120, 3#8), (814383121, 3#8), (814383122,
   3#8), (814383123, 3#8), (814383124, 3#8), (814383125, 3#8), (814383126, 3#8), (814383127, 3#8), (814383128, 3#8), (814383129,
   3#8), (814383130, 3#8), (814383131, 3#8), (814383132, 3#8), (814383133, 3#8), (814383134, 3#8), (814383135, 3#8)]
def payHive : Hive :=
  { mem := payMem, layout := ⟨8, 4, 64, [8, 8, 8, 8, 8]⟩, heads := [(0, 4294967295)], rr := [1, 0, 0, 0, 0], slotHead := 0, waiting := [],
    ownTaken := [0, 0, 0, 0, 0], ownSlots := 0, peak := [1, 0, 0, 0, 0], upsets := [], zeroReason := 0 }
def payIn : State × Option Handle := ({ hop with hive := payHive }, some ⟨0, 0, 0⟩)
def hd6 : Handle := payIn.2.getD ⟨0, 0, 0⟩
def takenPkt : RxPkt := { dispRx with taken := some (some hd6, [6]), counted := true, places := 0 }
def tile1 : Tile := ⟨4, 1, 0, 0, 0, 3, [⟨6, false, false⟩], false, 0, 0, 0, false⟩
def ap6 : Append := ⟨0, 0, 0, 3, dispRx.hdr 0, some 6, hd6, false, false, 63⟩
def appending : State := ((payIn.1.updClu 31 (fun c => { c with appendQ := [ap6] }))).updTiles (fun _ => [{ tile1 with rows := [] }])
def closedT : Tile := { tile1 with closed := true, r := 16 }
def sendTile : State := ((payIn.1.updTiles (fun _ => [closedT]))).updDie 3 (fun p => { p with tiles := [4], held := [9, 9, 9] })
/-- The same tile with two rows of the copy in two slots. -/
def closed2 : Tile := { closedT with rows := [⟨6, false, false⟩, ⟨7, true, false⟩] }
def sendTile2 : State := (((sendTile.addRef hd6 1 0).2).writeSlot 7 (dispRx.hdr 0) (some hd6) clDisp false 0).updTiles (fun _ => [closed2])
def sendMans : State := hop.updDie 3 (fun p => { p with mans := [(0, 1)], held := [9, 9, 9] })

/-- R214, R220, R222, R224: the peer's copy on its way to die 3. -/
theorem test_copies :
    appending.upset = [] ∧ appending.hive.upsets = [] ∧ sendTile.hive.upsets = [] ∧
    (got payIn.1 2 takenPkt).rxq 63 2 = [takenPkt] ∧
    payIn.2.isSome = true ∧
    (got payIn.1 2 takenPkt).halvesInOrder.all (fun k => !((got payIn.1 2 takenPkt).half k.1 k.2).rxDone) = true ∧
    (appending.cluster 31).appendQ = [ap6] ∧
    appending.openTile 0 0 0 3 = some { tile1 with rows := [] } ∧
    1 < appending.maxRows ∧
    (appending.half 0 0).rxDone = false ∧
    sendTile.portPick 3 = some pcTile ∧
    sendTile.tileHead 3 = some closedT ∧
    sendTile.handleOk (sendTile.slotHandle 6) = true ∧
    (sendMans.creditReady 3, sendMans.portPick 3) = (false, some pcManifest) ∧
    sendTile2.portPick 3 = some pcTile ∧
    sendTile2.tileHead 3 = some closed2 ∧
    (closed2.rows.foldl (fun u r => u.release (sendTile2.slotHandle r.slot) 24 (some r.slot)) sendTile2).errs = [] ∧
    (closedT.rows.foldl (fun u r => u.release (sendTile.slotHandle r.slot) 24 (some r.slot)) sendTile).errs = [] ∧
    nexts (exec (.cutThroughRelease 63 2) (got payIn.1 2 takenPkt)) (fun t => decide (
      t.rxq 63 2 = [] ∧ (t.cluster 31).appendQ.map (fun (x : Append) => (x.slot, x.h)) = [(some 6, hd6)] ∧
      t.regs = payIn.1.regs)) = true ∧
    nexts (exec (.tileAppend 31) appending) (fun t => decide (
      (t.cluster 31).appendQ = [] ∧ t.tiles.live = [tile1] ∧ t.regs = appending.regs)) = true ∧
    nexts (exec (.expTileSend 3) sendTile) (fun t => decide (
      t.outs.head?.map (fun (o : Out) => match o with | Out.dieMsg a h b => (a, W8.msg h, b) | _ => (9, 9, [])) = some (3, 2, rowMask 16 1 ++ padTo 16 [0, 0, 0, 5] ++ List.replicate 32 3) ∧
      (t.port 3).tiles = [] ∧ (t.port 3).held = [8, 9, 9])) = true ∧
    nexts (exec (.expTileSend 3) sendTile2) (fun t => decide (
      t.outs.length = 1 ∧ (t.port 3).tiles = [] ∧ (t.port 3).held = [8, 9, 9])) = true ∧
    nexts (exec (.tileManifestSend 3) sendMans) (fun t => decide (
      t.outs.head?.map (fun (o : Out) => match o with | Out.dieMsg a h b => (a, W8.msg h, b == sendMans.dieManBody 0 1 3) | _ => (9, 9, false)) = some (3, 3, true) ∧
      (t.port 3).mans = [] ∧ t.regs = sendMans.regs)) = true := by decide +kernel

/-- A packet with that payload and slot waits on VC2, and a RELEASE for cycle 500 on VC0. -/
def payPkt : TxPkt := TxPkt.own 2 7 1 (dispRx.hdr 0).bytes (some (hd6, 32)) [6]
def slotPay : State := payIn.1.updTx 63 (fun t => { t with q := [[], [], [payPkt], []] })
def relPkt : TxPkt := { TxPkt.own 0 7 1 (hop.barHdr 9 7 0 0 false 0).sealed.bytes none [] with fire := some 500 }
def slotRel : State := hop.updTx 63 (fun t => { t with q := [[relPkt], [], [], []] })

/-- R178, R296: headers and payload leave, and the cell and slot are free; R359: REM from cycle 100. -/
theorem test_slot_payload :
    (slotPay.settleSlot 63).pickVc 63 = some (2, false) ∧ (slotRel.settleSlot 63).pickVc 63 = some (0, false) ∧
    (slotPay.link 63).tx.current 2 = some 0 ∧ (slotRel.link 63).tx.current 0 = some 0 ∧
    slotPay.handleOk hd6 = true ∧ slotPay.hive.upsets = [] ∧ slotPay.limbo = [] ∧ slotPay.encOn 63 = false ∧ slotPay.linkState 63 = lsActive ∧
    slotPay.upset = [] ∧ slotPay.bar.open_ = false ∧ (slotPay.link 63).tx.resend = 0 ∧
    nexts (exec (.flitSlotGrant 63 100) slotPay) (fun t => decide (
      t.outs.head?.map (fun (o : Out) => match o with | Out.flit n _ b => (n, b) | _ => (0, [])) = some (63, padTo 240 ((dispRx.hdr 0).bytes ++ List.replicate 32 3)) ∧
      sameHive t.hive (((slotPay.release hd6 31 (some 6)).freeSlots [6]).hive) = true ∧ t.errs = [])) = true ∧
    nexts (exec (.flitSlotGrant 63 100) slotRel) (fun t => decide (
      t.outs.head?.map (fun (o : Out) => match o with | Out.flit n _ b => (n, (W8.ofBytes b).w2, (W8.ofBytes b).ok) | _ => (0, 0, false)) = some (63, 400#32, true))) = true := by decide +kernel

/-- The tile sent to die 2 holds a copy of package 7's token in slot 5. -/
def peerRow (poison : Bool) : State := (hop.writeSlot 5 (fullHdr 0 7 0).sealed none clDisp false 0).updTiles (fun _ =>
  [{ tile0 with rows := [⟨5, poison, false⟩] }])
def peerBack : W8 := (peerRow false).resHdr ((peerRow false).slotHdr 5) false
def peerStub : W8 := (peerRow true).resHdr ((peerRow true).slotHdr 5) true
def peerG : Option Handle × State :=
  (((peerRow false).stage 2 1 (resHdrOf 0 0) resBody true).slotRead .dieRx 2 5).2.allocPay clRes ((peerRow false).resBytes 0) 1 false (.resPort 2)
def ownPoison : State := out1.updTiles (fun _ => [{ tile0 with rows := [⟨5, true, false⟩] }])
def ownStub : W8 := ownPoison.resHdr (ownPoison.slotHdr 5) true
def ownG : State :=
  ((((ownPoison.stage 2 1 (resHdrOf 0 0) resBody true).slotRead .dieRx 2 5).2.writeSlot 5 ownStub none clRes true (at_ 0 tile0.tag)).setOwner 5
    (at_ 0 tile0.tag) (at_ 0 0) 0).poisonSlot 0 0 (W8.tclu ownStub / 8) 0 0

/-- R208, R311: a peer's copy leaves on VC3 of link 63, with its payload and as a stub. -/
theorem test_result_peer :
    (peerRow false).tagTile 2 (resHdrOf 0 0).w3 = some { tile0 with rows := [⟨5, false, false⟩] } ∧
    (peerRow false).resOk tile0 (resHdrOf 0 0) = true ∧ (peerRow true).resOk { tile0 with rows := [⟨5, true, false⟩] } (resHdrOf 0 0) = true ∧
    (peerRow false).owedNothing 7 = false ∧ W8.tsrc ((peerRow false).slotHdr 5) = 7 ∧ W8.tdest peerBack = 7 ∧ (peerRow false).self = 0 ∧
    (peerRow false).member = true ∧ (peerRow false).upset = [] ∧ (peerRow false).hive.upsets = [] ∧
    (peerRow false).routeOf 3 ((peerRow false).cmidOf 7) none peerBack.bytes = some 63 ∧ (peerRow false).vcRoom 63 3 = true ∧
    (peerRow true).routeOf 3 ((peerRow true).cmidOf 7) none peerStub.bytes = some 63 ∧
    (peerRow false).needsConv 0 (resHdrOf 0 0) = false ∧ ((peerRow false).port 2).res = [] ∧ peerG.1.isSome = true ∧ peerG.2.errs = [] ∧
    nexts (exec (.expResult 2 (resHdrOf 0 0) resBody) (peerRow false)) (fun t => decide (
      (t.link 63).tx.q.getD 3 [] = [TxPkt.own 3 7 1 peerBack.bytes (peerG.1.map (fun p => (p, 16 * W8.tlen peerBack))) [5]] ∧
      (t.port 2).res = [] ∧ t.tiles.live = [] ∧ 16 * W8.tlen peerBack = 128)) = true ∧
    nexts (exec (.expResult 2 (resHdrOf 0 0) resBody) (peerRow true)) (fun t => decide (
      (t.link 63).tx.q.getD 3 [] = [TxPkt.own 3 7 1 peerStub.bytes none [5]] ∧ t.tiles.live = [] ∧
      W8.tpoison peerStub = true ∧ W8.tlen peerStub = 0)) = true := by decide +kernel

/-- R311, R319: a poisoned row closes the own token's leaf as poisoned. -/
theorem test_result_poison :
    ownPoison.findLeaf 0 0 (W8.tclu ownStub / 8) ownStub = some (0, 0) ∧
    ownPoison.leafState 0 0 (W8.tclu ownStub / 8) 0 0 = some .open_ ∧
    W8.tdest ownStub = ownPoison.self ∧ W8.tlayer ownStub = 0 ∧ W8.thalf ownStub = 0 ∧
    ownG.errs = [] ∧
    nexts (exec (.expResult 2 (resHdrOf 0 0) resBody) ownPoison) (fun t => decide (
      (t.tok 0 0 0 0).map (fun (y : Tok) => (y.poison, (y.leafAt 0).map Leaf.st)) = some (true, some LeafState.poisoned) ∧
      t.word (R.ladlePoisonCnt 0) = 1 ∧ sameHive t.hive (ownG.freeSlot 5).hive = true ∧ (t.port 2).res = [])) = true := by decide +kernel

/-- Region 0's token has its result, a row of FP32 ones, in slot 5. -/
def resIn : State × Handle :=
  match out1.allocPay clRes 128 1 true (.resPort 2) with
  | (some hd, u) => ((u.writePay hd 0 resBody).writeSlot 5 (fullHdr 0 0 0).sealed (some hd) clRes true 0, hd)
  | (none, u) => (u, ⟨9, 9, 9⟩)
def usedTok : Tok := { (out1.tok 0 0 0 0).getD tok7 with leaves := [{ leaf0 with st := .used resIn.2 5 }], avail := [0] }
def combining : State := resIn.1.updPort 0 0 0 (fun p => { p with toks := [usedTok] })
def combSum : List Nat := orderedSum combining.nRegions (combining.leafCount 0) (combining.gateRec 0).h (combining.contribs 0 usedTok)
def openMode : State := combining.updStep (fun x => { x with ordered := false })
/-- Its row is stored, beside one that is not sent in the same message. -/
def rowIn : State := (resIn.1.updPort 0 0 0 (fun p => { p with last := true, toks :=
  [{ usedTok with row := some resBody }, { usedTok with row := some resBody }, { usedTok with row := some resBody }] })).updDie 0 (fun p =>
  { p with held := [9, 9, 9] })

/-- R313, R317: 1.0 times the row; R314. -/
theorem test_combine :
    combining.hive.upsets = [] ∧ openMode.hive.upsets = [] ∧ combining.upset = [] ∧
    combining.step.ordered = true ∧ openMode.step.ordered = false ∧
    combining.ladleWindow 0 = [(0, 0, 0, usedTok)] ∧
    usedTok.row = none ∧
    combining.tokComplete usedTok = true ∧
    ((combining.inc (R.ladleHeadWaitCnt 0) 6).slotsRead .ladle 0 [5]).1 = true ∧
    (((combining.inc (R.ladleHeadWaitCnt 0) 6).slotsRead .ladle 0 [5]).2.useHandles (combining.resBytes 0) .ladle 0 (usedTok.leaves.filterMap (·.slot))).1 = true ∧
    usedTok.leaves.filterMap (·.slot) = [(resIn.2, 5)] ∧
    (((((combining.inc (R.ladleHeadWaitCnt 0) 6).slotsRead .ladle 0 [5]).2.useHandles (combining.resBytes 0) .ladle 0 (usedTok.leaves.filterMap (·.slot))).2.storeRow 0 0 0 0 combSum).releaseLeaves 0 0 usedTok).errs = [] ∧
    openMode.ladleWindow 0 = [(0, 0, 0, usedTok)] ∧
    openMode.slotArriving 5 = false ∧
    openMode.handleOk resIn.2 = true ∧
    (usedTok.leafAt 0).map Leaf.slot = some (some (resIn.2, 5)) ∧
    nexts (exec (.ladleCombineToken 0 6) combining) (fun t => decide (
      t.tok 0 0 0 0 = some { usedTok with row := some resBody, sums := none } ∧ t.word (R.ladleHeadWaitCnt 0) = 6)) = true ∧
    nexts (exec (.ladleAddResult 0) openMode) (fun t => decide (
      (t.tok 0 0 0 0).map (fun (y : Tok) => (y.avail, y.sums)) = some ([], some (List.replicate 32 0x3F800000)) ∧ t.word (R.ladleContribCnt 0) = 1)) = true := by decide +kernel

/-- MSG_ROWS is 2: the third row waits. -/
def rowsOut : State := ((rowIn.put F.ladleCtlMsgRows 2).updPort 0 0 0 (fun p => { p with combDone := false })).updStep
  (fun x => { x with combQ := [[(0, 0, 2)], [], [], []] })

/-- R321: two rows of three leave, the most of one message. -/
theorem test_comb_send :
    rowsOut.portPick 0 = some pcComb ∧
    (rowsOut.combNext 0).map (fun x => (x.1, x.2.1, x.2.2.1.length, x.2.2.2)) = some (0, 0, 2, false) ∧
    rowsOut.inFlight.all (fun k => !rowsOut.layerComplete k) = true ∧
    rowsOut.step.done.length ≠ rowsOut.modelLayers ∧
    rowsOut.upset = [] ∧
    nexts (exec (.combResultSend 0) rowsOut) (fun t => decide (
      (t.portHalf 0 0 0).sent = 2 ∧ t.word (R.ladleTokCnt 0) = 2)) = true := by decide +kernel

/-- Group 0 holds the four dies of the package; a contribution of a sum of four 32-bit integers of the next step (step 1). -/
def grp : State := (base.setNum (R.swarmGroup 0) 0x1E000000).updDie 1 (fun p => { p with held := [9, 9, 9] })
def swH (seq : Nat) : W8 := (dieHdr 6 8 false false false 1 0 0 0 0 (at_ 28 1) (at_ 0 1) seq 0 (at_ 0 4)).sealed
def swNext : Nat := seqAdd grp.curSeq 1
def swBody : List Byte := [1, 0, 0, 0, 2, 0, 0, 0, 3, 0, 0, 0, 4, 0, 0, 0]
def swK : ChunkKey := swmKey (swH swNext)
def opened : State := (grp.openChunk swK (swmShape (swH swNext))).getD grp
def swWait : State := grp.updDie 1 (fun p => { p with swm := [⟨swH swNext, swBody, true, 0, 0⟩] })
/-- The P4 cell granted for die d's contribution. -/
def swG (s : State) (d : Nat) : Option Handle × State := s.allocP4 1 (.swmPort d)
def heldAt (t : State) (k : ChunkKey) (v : Nat) : List (Nat × Bool) :=
  (((t.chunkOf k).bind (fun c => c.node v)).map (fun x => x.held.map (fun (i : SwmIn) => (i.child, i.cell.isSome)))).getD []

/-- R341, R349, R351: die 2's contribution of the next step is held; one staged for want of the window opens its chunk. -/
theorem test_swarm_in :
    opened.bar.open_ = false ∧
    ((opened.chunkOf swK).map (fun c => c.nodes.all (fun y => y.held.isEmpty))) = some true ∧
    swWait.swarm.chunks = [] ∧ (swWait.port 0).swm = [] ∧ (swWait.port 2).swm = [] ∧ (swWait.port 3).swm = [] ∧
    grp.atWork = true ∧
    grp.errs = [] ∧
    grp.upset = [] ∧
    (swH swNext).ok = true ∧
    (opened.stage 2 2 (swH swNext) swBody true).swmInOk 2 (swH swNext) = true ∧
    (opened.chunkOf swK).map (fun c => (c.final, c.nodes.length, opened.mustDefer c, c.poison)) = some (false, 1, true, false) ∧
    (swG (opened.stage 2 2 (swH swNext) swBody true) 2).1.isSome = true ∧
    (swG (opened.stage 2 2 (swH swNext) swBody true) 2).2.errs = [] ∧
    swWait.swmInOk 1 (swH swNext) = true ∧
    swWait.roster.rev = none ∧
    (swG ((swWait.openChunk swK (swmShape (swH swNext))).getD swWait) 1).1.isSome = true ∧
    nexts (exec (.swarmIn 2 (swH swNext) swBody) opened) (fun t => decide (
      (t.port 2).swm = [] ∧ heldAt t swK 0 = [(2, true)] ∧ (t.chunkOf swK).map (fun (c : Chunk) => c.nodes.map (fun (x : SwmNode) => (x.got, x.done))) = some [([2], false)] ∧
      t.hive = ((swG opened 2).2.writePay ((swG opened 2).1.getD ⟨0, 0, 0⟩) 0 swBody).hive)) = true ∧
    nexts (exec .swarmChunkOpen swWait) (fun t => decide (
      (t.port 1).swm = [] ∧ heldAt t swK 0 = [(1, true)] ∧
      t.hive = ((swG swWait 1).2.writePay ((swG swWait 1).1.getD ⟨0, 0, 0⟩) 0 swBody).hive)) = true := by decide +kernel

/-- Group 1 of the fleet spans domain 0; group 2 spans the domains 0 and 1 with the representative 7. -/
def grpF : State := ((hop.setNum (R.swarmGroup 1) 0x7E000000).setNum (R.swarmGroup 2) 0x9E003007).updRoster (fun r => { r with rev := none })
def keyF (g : Nat) : ChunkKey := (seqAdd grpF.curSeq 1, g, 0, 0)
def openF (g : Nat) : State := (grpF.openChunk (keyF g) (swmShape (swH 0))).getD grpF
def cF (g : Nat) : Chunk := ((openF g).chunkOf (keyF g)).getD ⟨0, 0, 0, 0, ⟨0, 0, false, 0, 0, 0, 0⟩, [], false, [], [], false, false⟩
/-- A packet of the chunk from package 5. -/
def swRx (g dir : Nat) (poison : Bool) : RxPkt :=
  rxOfHdr { (openF g).chunkHdr (cF g) dir (openF g).cmid poison with w5 := at_ 20 5 ||| at_ 2 1 } (if poison then [] else swBody)

/-- A sum of the running step, with the values 1, 2, 3 and 4 of one child held and of `added` added. -/
def sumOf (s : State) (g : Nat) (child : Nat) (added : List Nat) : State :=
  let k : ChunkKey := (s.curSeq, g, 0, 0)
  let s1 := (s.openChunk k (swmShape (swH s.curSeq))).getD s
  match s1.allocP4 1 (.swmPort 1) with
  | (some hd, u) => (u.writePay hd 0 swBody).updNode k 0 (fun x => { x with
      held := [⟨child, false, some hd⟩], got := added ++ [child], added := added
      acc := if added.isEmpty then none else some [10, 20, 30, 0xFFFFFFFF] })
  | (none, u) => u
def sumPart : State := sumOf grp 0 0 []
def sumLast : State := sumOf grp 0 3 [0, 1, 2]
/-- At package 5, whose tray's node is at package 0, over link 63. -/
def sumUp : State := sumOf ((grpF.put F.rosterSelfPkg 5).put (F.linkPeerPeerId 63) 0) 1 3 [0, 1, 2]
def theSum (s : State) : Chunk := (s.swarm.chunks.head?).getD ⟨0, 0, 0, 0, ⟨0, 0, false, 0, 0, 0, 0⟩, [], false, [], [], false, false⟩
def theNode (s : State) : SwmNode := ((theSum s).node 0).getD ⟨9, [], [], [], none, false, 0⟩
def heldCell (s : State) : Handle := ((theNode s).held.head?.bind (·.cell)).getD ⟨0, 0, 0⟩
/-- What the node has added goes to a cell of its own. -/
def sumG (s : State) : Option Handle × State := (s.addNode (theSum s).key 0 2).allocP4 1 (.swmPort 4)
def sumBytes : List Byte := [11, 0, 0, 0, 22, 0, 0, 0, 33, 0, 0, 0, 3, 0, 0, 0]
def sumCell (s : State) : Handle := (sumG s).1.getD ⟨0, 0, 0⟩
/-- What R345 to R348 ask of a state for its node to add. -/
def addsNext (s : State) : Bool :=
  s.atWork && s.errs.isEmpty && s.upset.isEmpty && !s.bar.open_ && s.roster.rev.isNone && decide (s.swarm.chunks = [theSum s]) &&
    !(theSum s).final && s.ports.all (fun p => p.swm.isEmpty) && (theSum s).sums && !s.mustDefer (theSum s) && (theSum s).group != 15 &&
    !(theNode s).done && decide (s.nextIn (theSum s) (theNode s) = (theNode s).held.head?) && s.handleOk (heldCell s) &&
    (heldCell s).pool != 0 && s.hive.upsets.isEmpty && (theSum s).nodes.all (fun y => y.level == 0 || (!y.done && y.held.isEmpty))
def partAdded (s : State) : Bool := !(s.expected (theSum s) 0).isEmpty &&
  (s.expected (theSum s) 0).all (fun j => ((theNode s).added ++ (theNode s).held.map (·.child)).contains j)

/-- R345 to R348, R342: the first of four contributions; the last at the root, modulo 2^32; the last below a parent. -/
theorem test_swarm_sum :
    addsNext sumPart = true ∧
    addsNext sumLast = true ∧
    addsNext sumUp = true ∧
    partAdded sumPart = false ∧
    partAdded sumLast = true ∧
    partAdded sumUp = true ∧
    (sumG sumLast).1.isSome = true ∧ (sumG sumLast).2.errs = [] ∧
    (sumG sumUp).1.isSome = true ∧ (sumG sumUp).2.errs = [] ∧
    (sumLast.groupTree 0 sumLast.curSeq).scope = 0 ∧
    (theSum sumLast).shape.op = 1 ∧
    sumLast.diesOf 0 sumLast.curSeq sumLast.self = [0, 1, 2, 3] ∧
    ((sumG sumLast).2.writePay (sumCell sumLast) 0 sumBytes).handleOk (sumCell sumLast) = true ∧
    (((((sumG sumLast).2.writePay (sumCell sumLast) 0 sumBytes).addRef (sumCell sumLast) 4 0).2).release (sumCell sumLast) 0 none).errs = [] ∧
    0 < (sumUp.groupTree 1 sumUp.curSeq).scope ∧
    sumUp.seat (sumUp.groupTree 1 sumUp.curSeq) 1 sumUp.self ≠ sumUp.cmid ∧
    sumUp.seat (sumUp.groupTree 1 sumUp.curSeq) 1 sumUp.self = 0 ∧ sumUp.seatLost 0 = false ∧
    sumUp.routeOf 1 0 none (sumUp.chunkHdr (theSum sumUp) 0 0 false).bytes = some 63 ∧
    sumUp.nodeNeeds (theSum sumUp) 0 = true ∧
    nexts (exec .swarmChunkOpen sumPart) (fun t => decide (
      (theNode t).added = [0] ∧ (theNode t).acc = some [1, 2, 3, 4] ∧ (theNode t).held = [] ∧
      sameHive t.hive ((sumPart.release (heldCell sumPart) 0 none).hive) = true ∧ t.swarm.outs = [])) = true ∧
    nexts (exec .swarmChunkOpen sumLast) (fun t => decide (
      sameHive t.hive ((((((sumG sumLast).2.writePay (sumCell sumLast) 0 sumBytes).addRef (sumCell sumLast) 4 0).2).release (sumCell sumLast) 0 none).hive) = true ∧
      t.swarm.outs.map (fun (o : SwmOut) => (o.die, o.cell == some (sumCell sumLast), o.status)) = [(0, true, 0), (0, false, 0), (1, true, 0), (1, false, 0), (2, true, 0), (2, false, 0), (3, true, 0), (3, false, 0)] ∧
      t.payload (sumCell sumLast) 16 = sumBytes)) = true ∧
    nexts (exec .swarmChunkOpen sumUp) (fun t => decide (
      sameHive t.hive (((sumG sumUp).2.writePay (sumCell sumUp) 0 sumBytes).hive) = true ∧ t.swarm.outs = [] ∧ t.word R.swarmSatCnt = 0 ∧
      (t.link 63).tx.q.getD 1 [] = [TxPkt.own 1 0 1 (sumUp.chunkHdr (theSum sumUp) 0 0 false).bytes (some (sumCell sumUp, 16)) []])) = true := by decide +kernel

/-- R344, R346: child 5 of the tray node; R354: its NOTICE goes on to the domain's node at package 7. -/
theorem test_swarm_rx :
    grpF.member = true ∧
    grpF.atWork = true ∧
    (got (openF 1) 1 (swRx 1 0 false)).swmHead 63 = some (0, swRx 1 0 false) ∧
    (got (openF 1) 1 (swRx 1 0 false)).chunkHdrOk (swRx 1 0 false) = true ∧
    (openF 1).upTarget ((openF 1).groupTree 1 (keyF 1).1) 5 = some (1, 5) ∧
    (openF 1).mustDefer (cF 1) = true ∧
    ((got (openF 1) 1 (swRx 1 0 false)).allocP4 1 (.rx 63 1)).1.isSome = true ∧
    ((got (openF 1) 1 (swRx 1 0 false)).allocP4 1 (.rx 63 1)).2.errs = [] ∧
    (got (openF 2) 1 (swRx 2 2 true)).chunkHdrOk (swRx 2 2 true) = true ∧
    ((openF 2).ownLevels ((openF 2).groupTree 2 (keyF 2).1)) = [0, 1, 2] ∧
    ((openF 2).groupTree 2 (keyF 2).1).scope = 4 ∧
    (openF 2).seat ((openF 2).groupTree 2 (keyF 2).1) 3 0 = 7 ∧
    (openF 2).seatLost 7 = false ∧
    (openF 2).routeOf 1 7 none ((openF 2).chunkHdr (cF 2) 2 7 true).bytes = some 63 ∧
    (((openF 2).link 63).tx.q.length, (openF 2).links.length) = (4, 64) ∧
    nexts (exec (.swarmChunkRx 63) (got (openF 1) 1 (swRx 1 0 false))) (fun t => decide (
      t.rxq 63 1 = [] ∧ heldAt t (keyF 1) 1 = [(5, true)] ∧
      ((((t.chunkOf (keyF 1)).bind (fun (c : Chunk) => c.node 1)).bind (fun (x : SwmNode) => x.held.head?)).bind (·.cell)).map (fun hd => t.payload hd 16) = some swBody)) = true ∧
    nexts (exec (.swarmNoticeRx 63) (got (openF 2) 1 (swRx 2 2 true))) (fun t => decide (
      t.rxq 63 1 = [] ∧ (t.link 63).tx.q.getD 1 [] = [TxPkt.own 1 7 1 ((openF 2).chunkHdr (cF 2) 2 7 true).bytes none []])) = true := by decide +kernel

/-- The same packet with half of its chunk still to come. -/
def swPart : RxPkt := { swRx 1 0 false with whole := false, bytes := (swRx 1 0 false).bytes.take 40 }

/-- R212, R269: its bytes go to the cell, and its places are free. -/
theorem test_swarm_part :
    (got (openF 1) 1 swPart).swmHead 63 = some (0, swPart) ∧
    (got (openF 1) 1 swPart).chunkHdrOk swPart = true ∧
    (keyF 1).1 = seqAdd (openF 1).curSeq 1 ∧
    ((openF 1).chunkOf (keyF 1)).map (·.final) = some false ∧
    ((got (openF 1) 1 swPart).allocP4 1 (.rx 63 1)).1.isSome = true ∧
    ((got (openF 1) 1 swPart).allocP4 1 (.rx 63 1)).2.errs = [] ∧
    nexts (exec (.swarmChunkRx 63) (got (openF 1) 1 swPart)) (fun t => decide (
      (t.rxq 63 1).map (fun (x : RxPkt) => (x.taken.isSome, x.places, x.whole)) = [(true, 0, false)] ∧ heldAt t (keyF 1) 1 = [] ∧
      (t.rxq 63 1).all (fun x => match x.taken with | some (some hd, _) => t.payload hd 8 == swBody.take 8 | _ => false) = true)) = true := by decide +kernel

/-- A result with its cell, and a signal, wait for die 1. -/
def cell1 : Option Handle × State := opened.allocP4 1 (.swmPort 1)
def outMsg (c : Option Handle) : SwmOut := ⟨1, swK, swmShape (swH swNext), c, 0⟩
def outWaits : State := (match cell1.1 with | some hd => cell1.2.writePay hd 0 swBody | none => cell1.2).updSwarm
  (fun w => { w with outs := [outMsg cell1.1] })
def sigWaits : State := opened.updSwarm (fun w => { w with outs := [outMsg none] })

/-- R342. -/
theorem test_swarm_out :
    outWaits.portPick 1 = some pcSwarm ∧
    outWaits.outHead 1 = some (outMsg cell1.1) ∧
    cell1.1.all (fun hd => outWaits.handleOk hd) = true ∧
    cell1.1.isSome = true ∧
    outWaits.hive.upsets = [] ∧
    sigWaits.portPick 1 = some pcSwarm ∧
    nexts (exec (.swarmOutSend 1) outWaits) (fun t => decide (
      t.outs = [Out.dieMsg 1 (outHdr (outMsg cell1.1)).sealed swBody] ∧ t.swarm.outs = [] ∧ (t.port 1).held = [9, 9, 8])) = true ∧
    nexts (exec (.swarmSignalSend 1) sigWaits) (fun t => decide (
      t.outs = [Out.dieMsg 1 (signalHdr (outMsg none)).sealed []] ∧ t.swarm.outs = [] ∧ (t.port 1).held = [9, 9, 8])) = true := by decide +kernel

/-- The barrier of the current step is open at package 0, the root. -/
def barring : State := hop.updBar (fun b => { b with open_ := true, step := hop.stepSeq })
def barRx (op w2 : Nat) : RxPkt :=
  rxOfHdr { barring.barHdr op barring.cmid w2 0 false barring.stepSeq with w5 := at_ 20 5 ||| at_ 2 1 } []
def firing : State := barring.updBar (fun b => { b with fireAt := some 99 })

/-- R358, R359, R360, R362, R364, R366: package 5 arrives; REM beyond the delay, and not; the fire. -/
theorem test_barrier :
    ((withTimer up tmBar 1).updBar (fun b => { b with open_ := true })).cycleOver = true ∧
    ((withTimer up tmBar 1).updBar (fun b => { b with open_ := true })).due tmBar = true ∧
    barring.bar.fired = none ∧ barring.bar.fireAt = none ∧
    barring.atWork = true ∧
    barring.member = true ∧
    (got barring 0 (barRx 8 0)).ctlHead 63 = some (0, barRx 8 0) ∧
    barring.barHdrOk (barRx 8 0) = true ∧
    (barRx 8 0).isBar 8 = true ∧
    W8.tseq ((barRx 8 0).hdr 0) = barring.bar.step ∧
    barring.upTarget (barring.barTree barring.bar.step []) 5 = some (1, 5) ∧
    before 32 barring.bar.step barring.stepSeq = false ∧
    (barRx 9 70).isBar 9 = true ∧
    barring.barHdrOk (barRx 9 70) = true ∧
    barring.get (F.linkRttDelay 63) = 0 ∧
    firing.bar.open_ = true ∧
    firing.bar.armed = false ∧
    nexts (exec (.arriveRx 63 1000) (got barring 0 (barRx 8 0))) (fun t => decide (
      t.bar.kids = [(1, 5, false)] ∧ t.rxq 63 0 = [] ∧ t.step = barring.step)) = true ∧
    nexts (exec (.releaseRx 63 1000) (got barring 0 (barRx 9 70))) (fun t => decide (
      t.bar.fireAt = some 1070 ∧ t.get F.swarmBarStatusLate = 0 ∧ t.bar.armed = false)) = true ∧
    nexts (exec (.releaseRx 63 1000) (got (barring.put F.swarmBarCtlExt 1) 0 (barRx 9 70))) (fun t => decide (
      t.bar.fireAt = some 1070 ∧ t.bar.armed = true)) = true ∧
    nexts (exec (.barrierFire 99) (firing.updBar (fun b => { b with armed := true }))) (fun t => decide (
      t.bar.fireAt = none ∧ t.bar.open_ = true ∧ t.outs = Out.syncPulse :: firing.outs ∧ t.word R.swarmBarCnt = 0)) = true ∧
    nexts (exec (.releaseRx 63 1000) (got barring 0 (barRx 9 0))) (fun t => decide (
      t.bar.fireAt = some 1001 ∧ t.get F.swarmBarStatusLate = 1 ∧ t.word R.swarmBarLateCnt = 1)) = true ∧
    nexts (exec (.barrierFire 99) firing) (fun t => decide (
      t.word R.swarmBarCnt = 1 ∧ t.bar.open_ = false)) = true ∧
    nexts (exec (.barrierFire 99) (firing.updBar (fun b => { b with open_ := false }))) (fun t => decide (
      t.bar.fireAt = none ∧ t.word R.swarmBarCnt = 0)) = true ∧
    nexts (exec .barrierTimeout (withTimer up tmBar 1)) (fun t => decide (
      t.word R.swarmBarTmoCnt = 0)) = true ∧
    nexts (exec .barrierTimeout ((withTimer up tmBar 1).updBar (fun b => { b with open_ := true }))) (fun t => decide (
      t.word R.swarmBarTmoCnt = 1 ∧ t.get F.rasErrLastSrc = 0x10)) = true := by decide +kernel

/-- R1, R2: region 4, cluster 32, link 64, host port 4, Keeper 9 and channel 4096; the last ones present. -/
theorem test_absent_instances :
    up.hasRegion 4 = false ∧
    up.hasCluster 32 = false ∧
    up.hasLink 64 = false ∧
    [Instr.hsTile 4 ⟨0, 0, 0, 0, 0, 0, 0, 0⟩ [], .tileAppend 32, .fecCorrPulse 64, .jobStart 4, .keeperScrub 9 .clean, .hiveRefresh 4096].all (fun i => !up.hasInstance i) = true ∧
    [Instr.creditSend 3 0, .tileAppend 31, .badFlitRx 63, .jobAbort 3, .jobCmdIgnored 3 0, .keeperScrub 8 .clean, .hiveRefresh 4095, .swarmChunkOpen].all (fun i => up.hasInstance i) = true ∧
    [Instr.hsTile 4 ⟨0, 0, 0, 0, 0, 0, 0, 0⟩ [], .creditSend 4 0, .expTileSend 4, .tileAppend 32, .fecCorrPulse 64, .badFlitRx 64, .jobStart 4, .regWrite 4 0 0].all (fun i => absent (exec i up)) = true := by decide +kernel

/-- each check of WellFormed refuses a term. -/
theorem test_ill_formed :
    [Instr.jobStart 4, .creditSend 4 0, .creditSend 0 3, .tileAppend 32, .badFlitRx 64, .capacityPassStart 256 0, .capacityPassStart 0 2].all (fun i => !i.wf) = true ∧
    [Instr.regWrite 0 0x100000 0, .keySet [], .hsTile 0 ⟨1, 0, 0, 0, 0, 0, 0, 0⟩ [], .dataFlitRx 0 ⟨0, 0, 0, 0⟩ [], .recipeReadDone (some []) none].all (fun i => !i.wf) = true ∧
    [Instr.hiveAllocGrant 6 0, .hiveRefresh 4096, .cutThroughRelease 0 4, .lossDetect 512, .linkCreditStall 0 4, .keeperScrub 9 .clean].all (fun i => !i.wf) = true ∧
    [Instr.debugPortRequest (.hiveRead 1), .debugPortRequest (.hiveWrite 0 []), .debugPortRequest (.keeperRead 9 0), .debugPortRequest (.keeperWrite 0 4 []), .debugPortRequest (.regRead 0x100000)].all (fun i => !i.wf) = true ∧
    [Instr.jobStart 3, .creditSend 3 2, .regWrite 0 0xFFFFC 0, .lossDetect 511, .debugPortRequest (.keeperRead 8 8)].all (fun i => i.wf) = true := by decide +kernel

end Sys2Proof.Tests
end

