-- ==== Sys2Proof/Proofs/PairAccess.lean ====
section
/-! PROOFS. Host accesses to the 64-bit pairs (R9): what a window read and a host write of either half do, what a write by
the access codes does to the register file, and the statement about the four pair commands. -/

namespace Sys2Proof.Machine

/-! ### Commands of a host port -/

/-- A command of a present host port that leaves no control error answers the state its action makes. -/
theorem State.runAt_hostPort {s t : State} {p : Nat} {f : State → State} (hp : p < 4) (hpow : s.powered = true)
    (hf : f s = t) (he : t.errs = []) : s.runAt (hasHostPort p) s.powered f = .next t := by
  have hport : hasHostPort p = true := decide_eq_true hp
  rw [State.runAt_of s f hport hpow, hf, State.fin_none t he]

/-! ### The table of the pairs (R487) -/

/-- Both halves of a pair are aligned registers with a home of their own, apart from BOOT_LOCK, and the upper half begins no
pair. -/
theorem pairLos_halves : ∀ off ∈ pairLos, off % 4 = 0 ∧ regHome off = off ∧ regHome (off + 4) = off + 4 ∧
    off ≠ regHome R.bootLock ∧ (regSpec off).isSome = true ∧ (regSpec (off + 4)).isSome = true ∧
    isPairLo (off + 4) = false := by
  decide

variable {off : Nat}

theorem pairLo_aligned (hl : isPairLo off = true) : off % 4 = 0 := by
  obtain ⟨h, -⟩ := pairLos_halves off (List.contains_iff_mem.1 hl)
  exact h

theorem pairLo_homes (hl : isPairLo off = true) :
    regHome off = off ∧ regHome (off + 4) = off + 4 ∧ off ≠ regHome R.bootLock := by
  obtain ⟨-, hlo, hhi, hlock, -⟩ := pairLos_halves off (List.contains_iff_mem.1 hl)
  exact ⟨hlo, hhi, hlock⟩

theorem pairLo_specs (hl : isPairLo off = true) : (regSpec off).isSome = true ∧ (regSpec (off + 4)).isSome = true := by
  obtain ⟨-, -, -, -, hlo, hhi, -⟩ := pairLos_halves off (List.contains_iff_mem.1 hl)
  exact ⟨hlo, hhi⟩

theorem pairLo_upper (hl : isPairLo off = true) : isPairLo (off + 4) = false ∧ isPairHi (off + 4) = true := by
  obtain ⟨-, -, -, -, -, -, h⟩ := pairLos_halves off (List.contains_iff_mem.1 hl)
  exact ⟨h, by simpa [isPairHi] using List.contains_iff_mem.1 hl⟩

/-! ### Reads of a pair -/

theorem State.windowRead_pairLo (s : State) (hl : isPairLo off = true) (hc : s.closed off = false) :
    s.windowRead off =
      { s with rdata := s.shown off, pairCap := SMap.set noneAt s.pairCap off (some (s.shown (off + 4))) } := by
  obtain ⟨hspec, -⟩ := pairLo_specs hl
  simp [State.windowRead, pairLo_aligned hl, hc, Option.isSome_iff_ne_none.1 hspec, hl]

theorem State.windowRead_pairHi_captured (s : State) {w : Word} (hl : isPairLo off = true)
    (hc : s.closed (off + 4) = false) (hw : SMap.get noneAt s.pairCap off = some w) :
    s.windowRead (off + 4) = { s with rdata := w, pairCap := SMap.set noneAt s.pairCap off none } := by
  obtain ⟨-, hspec⟩ := pairLo_specs hl
  obtain ⟨hlo, hhi⟩ := pairLo_upper hl
  simp [State.windowRead, pairLo_aligned hl, hc, Option.isSome_iff_ne_none.1 hspec, hlo, hhi, hw]

theorem State.windowRead_pairHi_present (s : State) (hl : isPairLo off = true) (hc : s.closed (off + 4) = false)
    (hn : SMap.get noneAt s.pairCap off = none) :
    s.windowRead (off + 4) = { s with rdata := s.shown (off + 4) } := by
  obtain ⟨-, hspec⟩ := pairLo_specs hl
  obtain ⟨hlo, hhi⟩ := pairLo_upper hl
  simp [State.windowRead, pairLo_aligned hl, hc, Option.isSome_iff_ne_none.1 hspec, hlo, hhi, hn]

/-! ### A write by the access codes (R7) -/

theorem State.deferSlot_frame (s : State) (off : Nat) :
    ∃ eo so, s.deferSlot off = { s with effOld := eo, slotOld := so } := by
  unfold State.deferSlot
  split <;> exact ⟨_, _, rfl⟩

theorem State.defer_frame (s : State) (off : Nat) :
    ∃ eo so, s.defer off = { s with effOld := eo, slotOld := so } := by
  unfold State.defer
  split <;> exact ⟨_, _, rfl⟩

/-- Putting off when a word comes into force changes the two maps of old words alone. -/
theorem State.holdWord_frame (s : State) (r : RegSpec) (off : Nat) :
    ∃ eo so, s.holdWord r off = { s with effOld := eo, slotOld := so } := by
  unfold State.holdWord
  split
  · exact State.deferSlot_frame s off
  · split
    · exact ⟨_, _, rfl⟩
    · split
      · exact State.defer_frame s off
      · exact ⟨_, _, rfl⟩

/-- A write by the access codes changes the register file and the two maps of old words alone. -/
theorem State.plainWrite_frame (s : State) (r : RegSpec) (off : Nat) (v : Word) :
    ∃ eo so, s.plainWrite r off v = { s.setWord off (s.hostWord r off v) with effOld := eo, slotOld := so } := by
  obtain ⟨eo, so, h⟩ := State.holdWord_frame s r off
  exact ⟨eo, so, by rw [State.plainWrite, h]; rfl⟩

@[simp] theorem State.plainWrite_errs (s : State) (r : RegSpec) (off : Nat) (v : Word) :
    (s.plainWrite r off v).errs = s.errs := by
  obtain ⟨eo, so, h⟩ := State.plainWrite_frame s r off v
  rw [h]; rfl

@[simp] theorem State.plainWrite_pairHeld (s : State) (r : RegSpec) (off : Nat) (v : Word) :
    (s.plainWrite r off v).pairHeld = s.pairHeld := by
  obtain ⟨eo, so, h⟩ := State.plainWrite_frame s r off v
  rw [h]; rfl

theorem State.word_plainWrite (s : State) (r : RegSpec) (off : Nat) (v : Word) (o : Nat) :
    (s.plainWrite r off v).word o = if regHome o = regHome off then s.hostWord r off v else s.word o := by
  obtain ⟨eo, so, h⟩ := State.plainWrite_frame s r off v
  rw [h]
  exact State.word_setWord s off _ o

@[simp] theorem State.word_plainWrite_same (s : State) (r : RegSpec) (off : Nat) (v : Word) :
    (s.plainWrite r off v).word off = s.hostWord r off v := by
  rw [State.word_plainWrite, if_pos rfl]

theorem State.word_plainWrite_ne (s : State) (r : RegSpec) (off : Nat) (v : Word) {o : Nat}
    (h : regHome o ≠ regHome off) : (s.plainWrite r off v).word o = s.word o := by
  rw [State.word_plainWrite, if_neg h]

/-- What a host write leaves depends on the register's own word and on BOOT_LOCK. -/
theorem State.hostWord_congr {s t : State} (r : RegSpec) {o : Nat} (v : Word) (hw : t.word o = s.word o)
    (hlock : t.word R.bootLock = s.word R.bootLock) : t.hostWord r o v = s.hostWord r o v := by
  simp [State.hostWord, State.hostMask, State.flag, State.get, hw, hlock]

/-! ### Writes of a pair -/

theorem State.hostWrite_pairLo (s : State) (p : Nat) (v : Word) (hl : isPairLo off = true)
    (hc : s.closed off = false) :
    s.hostWrite p off v = { s with pairHeld := SMap.set noneAt s.pairHeld off (some v) } := by
  obtain ⟨hspec, -⟩ := pairLo_specs hl
  obtain ⟨r, hr⟩ := Option.isSome_iff_exists.1 hspec
  simp [State.hostWrite, pairLo_aligned hl, hc, hr, hl]

theorem State.hostWrite_pairHi (s : State) (p : Nat) (v : Word) (hl : isPairLo off = true)
    (hc : s.closed (off + 4) = false) : s.hostWrite p (off + 4) v = s.pairCommit (off + 4) v := by
  obtain ⟨-, hspec⟩ := pairLo_specs hl
  obtain ⟨r, hr⟩ := Option.isSome_iff_exists.1 hspec
  obtain ⟨hlo, hhi⟩ := pairLo_upper hl
  simp [State.hostWrite, pairLo_aligned hl, hc, hr, hlo, hhi]

/-- The state after both halves of a pair are written: the held word to the lower half, then the upper half. -/
def State.pairWritten (s : State) (off : Nat) (rl rh : RegSpec) (w v : Word) : State :=
  (({ s with pairHeld := SMap.set noneAt s.pairHeld off none } : State).plainWrite rl off w).plainWrite rh (off + 4) v

theorem State.pairCommit_held (s : State) {rl rh : RegSpec} {w : Word} (v : Word) (hrl : regSpec off = some rl)
    (hrh : regSpec (off + 4) = some rh) (hw : SMap.get noneAt s.pairHeld off = some w) :
    s.pairCommit (off + 4) v = s.pairWritten off rl rh w v := by
  simp [State.pairCommit, State.pairWritten, hw, hrl, hrh]

theorem State.pairCommit_none (s : State) {rh : RegSpec} (v : Word) (hrh : regSpec (off + 4) = some rh)
    (hn : SMap.get noneAt s.pairHeld off = none) :
    s.pairCommit (off + 4) v = s.plainWrite rh (off + 4) v := by
  simp [State.pairCommit, hn, hrh]

@[simp] theorem State.pairWritten_errs (s : State) (rl rh : RegSpec) (w v : Word) :
    (s.pairWritten off rl rh w v).errs = s.errs := by
  simp [State.pairWritten]

@[simp] theorem State.pairWritten_held (s : State) (rl rh : RegSpec) (w v : Word) :
    SMap.get noneAt (s.pairWritten off rl rh w v).pairHeld off = none := by
  simp [State.pairWritten]

theorem State.word_pairWritten_lo (s : State) (rl rh : RegSpec) (w v : Word) (hl : isPairLo off = true) :
    (s.pairWritten off rl rh w v).word off = s.hostWord rl off w := by
  obtain ⟨hlo, hhi, -⟩ := pairLo_homes hl
  have apart : regHome off ≠ regHome (off + 4) := by omega
  rw [State.pairWritten, State.word_plainWrite_ne _ _ _ _ apart, State.word_plainWrite_same]
  rfl

/-- The write of the lower half touches neither the upper half nor BOOT_LOCK. -/
theorem State.word_pairWritten_hi (s : State) (rl rh : RegSpec) (w v : Word) (hl : isPairLo off = true) :
    (s.pairWritten off rl rh w v).word (off + 4) = s.hostWord rh (off + 4) v := by
  obtain ⟨hlo, hhi, hlock⟩ := pairLo_homes hl
  have apart : regHome (off + 4) ≠ regHome off := by omega
  have lockApart : regHome R.bootLock ≠ regHome off := by omega
  rw [State.pairWritten, State.word_plainWrite_same]
  exact State.hostWord_congr rh v (State.word_plainWrite_ne _ _ _ _ apart) (State.word_plainWrite_ne _ _ _ _ lockApart)

theorem State.plainWrite_keepsRegsBut (s : State) (r : RegSpec) (off : Nat) (v : Word) :
    s.keepsRegsBut (s.plainWrite r off v) [off] := by
  intro o ho
  exact State.word_plainWrite_ne s r off v (by simpa using ho)

theorem State.pairWritten_keepsRegsBut (s : State) (rl rh : RegSpec) (w v : Word) :
    s.keepsRegsBut (s.pairWritten off rl rh w v) [off, off + 4] := by
  intro o ho
  obtain ⟨hlo, hhi⟩ : regHome o ≠ regHome off ∧ regHome o ≠ regHome (off + 4) := by simpa using ho
  rw [State.pairWritten, State.word_plainWrite_ne _ _ _ _ hhi, State.word_plainWrite_ne _ _ _ _ hlo]
  rfl

/-! ### The statement -/

/-- Settles O16: each command is its access of the window, whose outcome turns on whether a capture or a held word stands. -/
theorem pairsReadAndWriteTogether : Obligations.PairsReadAndWriteTogether := by
  unfold Obligations.PairsReadAndWriteTogether
  constructor
  · intro s p off hp hpow he hl hclo hchi
    refine ⟨?_, fun w hw => ?_, fun hn => ?_⟩
    · exact State.runAt_hostPort hp hpow (s.windowRead_pairLo hl hclo) he
    · exact State.runAt_hostPort hp hpow (s.windowRead_pairHi_captured hl hchi hw) he
    · exact State.runAt_hostPort hp hpow (s.windowRead_pairHi_present hl hchi hn) he
  · intro s p off v rl rh hp hpow he hl hclo hchi hrl hrh
    refine ⟨?_, fun w hw => ?_, fun hn => ?_⟩
    · exact State.runAt_hostPort hp hpow (s.hostWrite_pairLo p v hl hclo) he
    · have hwrite := (s.hostWrite_pairHi p v hl hchi).trans (s.pairCommit_held v hrl hrh hw)
      exact ⟨_, State.runAt_hostPort hp hpow hwrite (by simpa using he), s.word_pairWritten_lo rl rh w v hl,
        s.word_pairWritten_hi rl rh w v hl, s.pairWritten_held rl rh w v, s.pairWritten_keepsRegsBut rl rh w v⟩
    · have hwrite := (s.hostWrite_pairHi p v hl hchi).trans (s.pairCommit_none v hrh hn)
      obtain ⟨hlo, hhi, -⟩ := pairLo_homes hl
      have apart : regHome off ≠ regHome (off + 4) := by omega
      exact ⟨_, State.runAt_hostPort hp hpow hwrite (by simpa using he), s.word_plainWrite_ne rh _ v apart,
        s.word_plainWrite_same rh _ v, s.plainWrite_keepsRegsBut rh _ v⟩

end Sys2Proof.Machine
end

