-- ==== Sys2Proof/Proofs/ThermalAlert.lean ====
section
/-! PROOFS. THM_ALERT (R47): what partition reset leaves of a register (R8), the flags and the thermal count of an Ask's record
(R394), the state that an assertion of thm_alert_n makes, and the statement about it. -/

namespace Sys2Proof.Machine

/-! ### Single bits -/

@[simp] theorem bit_or (v w : Word) (i : Nat) : bit (v ||| w) i = (bit v i || bit w i) := BitVec.getLsbD_or

/-- A truth value placed at a bit shows at that bit alone. -/
@[simp] theorem bit_at_b2n (j : Nat) (b : Bool) (i : Nat) : bit (at_ j (b2n b)) i = (decide (i < 32 ∧ j = i) && b) := by
  cases b with
  | false => simp [bit, at_, b2n]
  | true => simp only [bit, at_, b2n, if_true, Nat.one_mul, BitVec.getLsbD_ofNat, Nat.testBit_two_pow, Bool.decide_and,
      Bool.and_true]

/-! ### A canonical map under a change of its values -/

/-- The rest of a canonical map is canonical and does not list the first key. -/
theorem SMap.wf_tail {α : Type} [DecidableEq α] (d : Nat → α) {k : Nat} {v : α} {r : SMap α}
    (h : SMap.wf d ((k, v) :: r) = true) : SMap.wf d r = true ∧ SMap.get d r k = d k := by
  obtain ⟨sorted, listed⟩ := (SMap.wf_iff d _).1 h
  obtain ⟨above, rest⟩ := List.pairwise_cons.1 sorted
  exact ⟨(SMap.wf_iff d r).2 ⟨rest, fun p hp => listed p (List.mem_cons_of_mem _ hp)⟩,
    SMap.get_absent d r k fun p hp => (above p.1 (List.mem_map_of_mem hp)).ne'⟩

/-- Changing every value of a canonical map by a function that keeps the defaults, and dropping the defaults that arise,
changes every read by that function. -/
theorem SMap.get_map_filter {α : Type} [DecidableEq α] (d : Nat → α) (f : Nat → α → α) (hf : ∀ k, f k (d k) = d k)
    (m : SMap α) (h : SMap.wf d m = true) (k : Nat) :
    SMap.get d ((m.map (fun p => (p.1, f p.1 p.2))).filter (fun p => p.2 != d p.1)) k = f k (SMap.get d m k) := by
  induction m with
  | nil => exact (hf k).symm
  | cons p r ih =>
    obtain ⟨j, v⟩ := p
    obtain ⟨hr, hj⟩ := SMap.wf_tail d h
    by_cases hk : j = k
    · subst hk
      by_cases hv : f j v = d j
      · simp [SMap.get, hv, ih hr, hj, hf]
      · simp [SMap.get, hv]
    · by_cases hv : f j v = d j <;> simp [SMap.get, hk, hv, ih hr]

/-! ### Partition reset of the registers (R8) -/

theorem and_or_and_not (w m : Word) : (w &&& m) ||| (w &&& ~~~m) = w := by
  ext i hi
  cases hm : m[i] <;> simp [hm]

/-- Of a register's word partition reset leaves the sticky bits; the others return to their reset value. -/
theorem State.word_partitionRegs (s : State) (h : s.regsWf = true) (off : Nat) :
    s.partitionRegs.word off = (s.word off &&& stickyMask (regHome off)) |||
      (regReset s.fuses (regHome off) &&& ~~~stickyMask (regHome off)) :=
  SMap.get_map_filter (regReset s.fuses) (fun k w => (w &&& stickyMask k) ||| (regReset s.fuses k &&& ~~~stickyMask k))
    (fun _ => and_or_and_not _ _) s.regs h (regHome off)

/-- A register whose bits are all sticky reads as before. -/
theorem State.word_partitionRegs_sticky (s : State) (h : s.regsWf = true) {off : Nat}
    (hm : stickyMask (regHome off) = BitVec.allOnes 32) : s.partitionRegs.word off = s.word off := by
  rw [State.word_partitionRegs s h, hm, BitVec.and_allOnes, BitVec.not_allOnes, BitVec.and_zero, BitVec.or_zero]

/-! ### An event that is raised (R40) -/

theorem State.word_raise_jobEvt (s : State) (b : Nat) : (s.raise b).word R.jobEvt = s.word R.jobEvt ||| at_ b 1 := by
  obtain ⟨o, h⟩ := State.raiseTo_frame s s.evtPort b
  rw [State.raise, h]
  exact State.word_setWord_same s _ _

theorem State.word_raise_ne (s : State) (b : Nat) {o : Nat} (h : regHome o ≠ regHome R.jobEvt) :
    (s.raise b).word o = s.word o := by
  obtain ⟨outs, hr⟩ := State.raiseTo_frame s s.evtPort b
  rw [State.raise, hr]
  exact State.word_setWord_ne s _ _ o h

/-! ### The thermal count in an Ask's record (R394) -/

theorem State.bit_askFlags_thermal (s : State) (h : AskHead) : bit (s.askFlags h) 6 = decide (0 < s.step.cnt.thm) := by
  simp [State.askFlags]

theorem State.askWords_flags (s : State) (h : AskHead) : (s.askWords h).getD 2 0 = s.askFlags h := rfl

/-- A19, whether or not the Recipe ran. -/
theorem State.askWords_thermal (s : State) (h : AskHead) :
    (s.askWords h).getD 19 0 = if h.load then 0 else BitVec.ofNat 32 s.step.cnt.thm := by
  cases hl : h.load <;> cases hr : h.ran <;> simp [State.askWords, hl, hr]

/-! ### The assertion of thm_alert_n (R47) -/

/-- An assertion changes the register file, what leaves the engine and the step's thermal count, and nothing else. -/
theorem State.thermal_frame (s : State) :
    ∃ o, s.thermal = { s with
      regs := s.thermal.regs
      outs := o
      step := { s.step with cnt := { s.step.cnt with thm := s.step.cnt.thm + 1 } } } := by
  obtain ⟨o, h⟩ := State.raiseTo_frame (s.inc R.rasThmCnt 1) (s.inc R.rasThmCnt 1).evtPort evThermal
  refine ⟨o, ?_⟩
  rw [State.thermal, State.raise, h]
  rfl

theorem State.word_thermal_count (s : State) : s.thermal.word R.rasThmCnt = s.word R.rasThmCnt + 1 :=
  (State.word_raise_ne _ _ (by decide)).trans (State.word_inc_same s _ _)

theorem State.word_thermal_jobEvt (s : State) : s.thermal.word R.jobEvt = s.word R.jobEvt ||| at_ evThermal 1 :=
  (State.word_raise_jobEvt (s.inc R.rasThmCnt 1) evThermal).trans
    (congrArg (· ||| at_ evThermal 1) (State.word_inc_ne s _ _ R.jobEvt (by decide)))

theorem State.thermal_keepsRegsBut (s : State) : s.keepsRegsBut s.thermal [R.rasThmCnt, R.jobEvt] := by
  intro o ho
  obtain ⟨hcount, hevt⟩ : regHome o ≠ regHome R.rasThmCnt ∧ regHome o ≠ regHome R.jobEvt := by simpa using ho
  exact (State.word_raise_ne _ _ hevt).trans (State.word_inc_ne s _ _ o hcount)

theorem exec_thmAlert (s : State) (hp : s.powered = true) (he : s.errs = []) : exec .thmAlert s = .next s.thermal := by
  obtain ⟨o, h⟩ := s.thermal_frame
  have herrs : s.thermal.errs = [] := by rw [h]; exact he
  exact (State.run_of s State.thermal hp).trans (State.fin_none _ herrs)

/-! ### The statement -/

/-- Settles O12: the counter is sticky in all its bits, so no partition reset takes the count back. -/
theorem thermalAlertIsCountedAndReported : Obligations.ThermalAlertIsCountedAndReported := by
  unfold Obligations.ThermalAlertIsCountedAndReported
  intro s hp he
  obtain ⟨o, h⟩ := s.thermal_frame
  have hstep : s.thermal.step = { s.step with cnt := { s.step.cnt with thm := s.step.cnt.thm + 1 } } := by rw [h]
  refine ⟨s.thermal, exec_thmAlert s hp he, s.word_thermal_count,
    fun u hu => u.word_partitionRegs_sticky hu (by decide), ?_, fun hd => ⟨?_, ?_⟩, s.thermal_keepsRegsBut,
    by rw [h], by rw [h], by rw [h], by rw [h], by rw [h], by rw [h], hstep⟩
  · rw [State.word_thermal_jobEvt, bit_or, show bit (at_ evThermal 1) evThermal = true by decide, Bool.or_true]
  · rw [State.askWords_flags, State.bit_askFlags_thermal, hstep]
    exact decide_eq_true (Nat.succ_pos _)
  · rw [State.askWords_thermal, hstep]

end Sys2Proof.Machine
end
